-- ==== Sys2Proof/Word.lean ====
section
/-! DEFINITION. The word types of the PSME (00_scope.md R10, R11; 10_state.md R43): host-interface registers and
CLK data are 32 bits, SNS data and MMCM sub-register values 16 bits, the opcode and a stored divider 8 bits, a skip
factor 4 bits. -/

namespace Sys2Proof

/-- u32: a host-interface register, a CLK transaction's data, a rate, a table constant (R10, R43). -/
abbrev Word := BitVec 32

/-- u16: a sensor register value, an MMCM sub-register value, a window coordinate (R10, R43). -/
abbrev Half := BitVec 16

/-- u8: the OPCODE field of a command word (30_encoding.md R70), a stored divider `d`, `m` or `dout` (R43). -/
abbrev Byte := BitVec 8

/-- u12: the index of an MMCM sub-register (20_memory.md R50, 41_drp.md R103). -/
abbrev SubIndex := BitVec 12

/-- u4: a skip factor of the persistent state (10_state.md R29). -/
abbrev Nibble := BitVec 4

end Sys2Proof
end

