-- ==== Sys2Proof/Config.lean ====
section
/-! DEFINITION. What an implementation fixes (00_scope.md R9; the open parameters at the end of
92_eei_decisions.md; the general-knowledge parameters G1 to G18 of 93_implementation_defined.md), and the one
free value of the model, the answer of a channel transaction (20_memory.md R52). The values this hardware takes
are `Machine.psme` of Machine/Params.lean. -/

namespace Sys2Proof

/-- The two register channels (00_scope.md R8). -/
inductive Port where
  /-- the clock generator, 32-bit registers -/
  | clk
  /-- the image sensor, 16-bit registers -/
  | sns
  deriving DecidableEq, Repr, Inhabited

/-- The answer of one channel transaction (20_memory.md R52). To a read, `value v` answers `v`, of which a port
takes the low bits of its width; to a write, `value _` is success. -/
inductive Answer where
  | value (v : Word)
  | ioError
  deriving DecidableEq, Repr, Inhabited

/-- FREE VALUE (log 3). The `n`-th answer that the input list does not give: any value of the port's width, or
IoError (R52, "a draw"). It has no body, so nothing can be proved of what it is. -/
opaque Config.freeAnswer : Nat → Answer

/-- The multiplier-bound formula, `M_BOUND_MODE` (42_pll_solver.md R123). -/
inductive MBoundMode where
  | exact
  | legacy
  deriving DecidableEq, Repr

/-- DividerFieldSet (43_mmcm_encoder.md R150). Exact integers: R155 reports them in 32 bits, R153 packs them. -/
structure DividerFields where
  low : Nat
  high : Nat
  edge : Nat
  noCount : Nat
  deriving DecidableEq, Repr

/-- What a row of `MMCM_PACK` computes its value from (43_mmcm_encoder.md R153): `F(d)`, `F(m)`, `F(dout)`,
`L = lockFor(m - 1)` and `Q = filterFor(m - 1)`. -/
structure PackInput where
  fd : DividerFields
  fm : DividerFields
  fdout : DividerFields
  lock : Word
  filter : Word
  deriving DecidableEq, Repr

/-- One row of `MMCM_PACK` (43_mmcm_encoder.md R153). The value is truncated to 16 bits before the write. -/
structure PackRow where
  index : SubIndex
  value : PackInput → Nat
  mask : Half

/-- One band of the filter lookup, both ends inclusive (10_state.md R36, 42_pll_solver.md R129). -/
structure FilterBand where
  first : Nat
  last : Nat
  constant : Word
  deriving DecidableEq, Repr

/-- The addresses of the sensor's registers, `SNS_REG` (10_state.md R40). -/
structure SnsRegs where
  rowStart : Half
  colStart : Half
  winHeight : Half
  winWidth : Half
  hBlank : Half
  vBlank : Half
  outputControl : Half
  shutterUpper : Half
  shutterLower : Half
  readMode2 : Half
  rowAddrMode : Half
  colAddrMode : Half
  globalGain : Half
  deriving DecidableEq, Repr

/-- The parameters that the source does not fix: each one an argument of the model (00_scope.md R9). The value of
every field for this hardware is in `Machine.psme`. -/
structure Config where
  /-- `M_BOUND_MODE` (R123, D14) -/
  mBoundMode : MBoundMode
  /-- `FILTER_TABLE` (R36, G1) -/
  filterTable : List FilterBand
  /-- `LOCK_TABLE` (R37, G2) -/
  lockTable : List Word
  /-- the part of a divider that goes to `high` (R150, G9) -/
  splitHigh : Nat → Nat
  /-- `MMCM_PACK` (R153, G3) -/
  mmcmPack : List PackRow
  /-- `DecodeDivider` (R162, G4) -/
  decodeDivider : Half → Nat
  /-- `SKIP_FN source target max = (skip, extent)` (R182, G5) -/
  skipFn : Nat → Nat → Nat → Nat × Nat
  /-- `AlignSize x lo hi a` (R181, G6) -/
  alignSize : Nat → Nat → Nat → Nat → Nat
  /-- `SNS_MIN_WIDTH` (G10) -/
  snsMinWidth : Nat
  /-- `SNS_MAX_WIDTH` (G10) -/
  snsMaxWidth : Nat
  /-- `SNS_MIN_HEIGHT` (G10) -/
  snsMinHeight : Nat
  /-- `SNS_MAX_HEIGHT` (G10) -/
  snsMaxHeight : Nat
  /-- `SNS_WALIGN` (G6) -/
  snsWAlign : Nat
  /-- `SNS_HALIGN` (G6) -/
  snsHAlign : Nat
  /-- `COLUMN_SKIP` (R185, G8) -/
  columnSkip : Nat
  /-- `ROW_SKIP` (R28, G11) -/
  rowSkip : Nat
  /-- `HBLANK` (G11) -/
  hBlank : Nat
  /-- `VBLANK` (R212, G11) -/
  vBlank : Nat
  /-- `Y_SKIP_TOP` (R31, G11) -/
  ySkipTop : Nat
  /-- `SNS_ADDR_BITS` (R10, G11) -/
  snsAddrBits : Nat
  /-- `SNS_REG` (R40, G12, G13) -/
  snsReg : SnsRegs
  /-- `OUTPUT_HOLD_MASK` (R40, G12) -/
  outputHoldMask : Half
  /-- the polarity of the output hold: `true` when a set bit means disabled (R213, G12) -/
  outputHoldIsSet : Bool
  /-- `HFLIP_MASK` (R211, G14) -/
  hFlipMask : Half
  /-- `VFLIP_MASK` (R211, G14) -/
  vFlipMask : Half
  /-- whether the upper shutter half is written first (R205, G13) -/
  shutterUpperFirst : Bool
  /-- the WIN_WIDTH encoding of a width (R216, G15) -/
  winWidthReg : Nat → Nat
  /-- the WIN_HEIGHT encoding of a height and `S.Y_SKIP_TOP` (R216, G15) -/
  winHeightReg : Nat → Nat → Nat
  /-- `FMT_CODE` (R215, G16) -/
  fmtCode : Word
  /-- `FMT_COLORSPACE` (R215, G16) -/
  fmtColorspace : Word
  /-- `FMT_FIELD` (R215, G16) -/
  fmtField : Word
  /-- the reset value of `S.AE_MODE` (R32, G17) -/
  aeModeReset : Bool

end Sys2Proof
end

