-- ==== Sys2Proof/Syntax.lean ====
section
/-! DEFINITION. The PSME's syntax: the command set (30_encoding.md R73), the host's accesses to the window
(10_state.md R22), the model's inputs, and the host-program statements (30_encoding.md R76, R77). -/

namespace Sys2Proof

/-- The command set PSME-1: one constructor per row of spec/opcode_table.json (30_encoding.md R73). A command word
carries no operand; operands are the latched arguments (R71). -/
inductive Instr where
  | drpRead
  | drpWrite
  | pllSolve
  | pllRoundRate
  | pllFilter
  | pllLock
  | pllFields
  | pllProgram
  | pllSetRate
  | clkEnable
  | clkDisable
  | clkSetParent
  | clkGetParent
  | pllRecalcRate
  | snsWindowSolve
  | snsGainCode
  | snsShutterCode
  | snsSetCtrl
  | snsGetFormat
  | snsSetFormat
  deriving DecidableEq, Repr

/-- The width of a host access. The PSME defines word accesses only (10_state.md R22). -/
inductive AccessSize where
  | byte
  | half
  | word
  deriving DecidableEq, Repr

/-- One host access to the window: its width, its byte offset from the PSME's base, and a write's value. -/
inductive HostAccess where
  | read (size : AccessSize) (offset : Nat)
  | write (size : AccessSize) (offset : Nat) (value : Word)
  deriving DecidableEq, Repr

/-- What the outside world does to the PSME, and when (log 2): one chronological list of these is pending in the
state. -/
inductive Input where
  /-- a host access that the host makes when the engine is IDLE -/
  | host (a : HostAccess)
  /-- a host access that the host makes at once, also while a command runs -/
  | hostBusy (a : HostAccess)
  /-- a device's answer to the transaction that waits for one -/
  | answer (a : Answer)
  /-- the reset input is asserted (70_reset_and_hazards.md R270) -/
  | reset
  /-- the running command issues its next channel transaction: what stands after this lands while that one waits for its
  answer, what stands before it lands before the transaction is issued -/
  | issued
  deriving DecidableEq, Repr

/-- The four primitive statements of a host program (30_encoding.md R76). `expect` names a host register by its
offset. -/
inductive HostStmt where
  | arg (n : Fin 8) (v : Word)
  | cmd (i : Instr)
  | wait
  | expect (offset : Nat) (v : Word)
  deriving DecidableEq, Repr

/-- The pseudo-instructions of a host program (30_encoding.md R77). -/
inductive PseudoStmt where
  /-- `MNEMONIC a0, a1, ..., ak` -/
  | call (i : Instr) (operands : List Word)
  | snsSetGain (v mn mx df : Word)
  | snsSetExposure (mode v mn mx : Word)
  | snsSetHFlip (on : Word)
  | snsSetVFlip (on : Word)
  deriving DecidableEq, Repr

/-- What goes on while a command runs and a `WAIT` finds BUSY = 1 (30_encoding.md R76; log 12). -/
inductive WaitEvent where
  /-- the host reads STATUS -/
  | poll
  /-- a device's answer to the transaction that waits for one -/
  | answer (a : Answer)
  /-- the command issues its next channel transaction -/
  | issued
  deriving DecidableEq, Repr

/-- A line of a host program: a primitive statement (30_encoding.md R76), or a pseudo-instruction (R77). `ends` is no
statement: it says that the command running there comes to its end, with these events, before the host's next line
(log 12). -/
inductive HostLine where
  | stmt (s : HostStmt)
  | pseudo (p : PseudoStmt)
  | ends (events : List WaitEvent)
  deriving DecidableEq, Repr

end Sys2Proof
end

