-- ==== Sys2Proof/WellFormed.lean ====
section
/-! DEFINITION. Well-formedness: of a command word (30_encoding.md R70, R75), of a host access (10_state.md R21,
R22), and of a configuration (the laws that 44_sensor_window.md R181, R182 and the widths of 10_state.md R28, R31,
R40 ask of the parameters). A value of `Instr` carries no operand (R71), so every one of them is well formed. -/

namespace Sys2Proof

/-- The opcodes of the table of 30_encoding.md R73. -/
def assignedOpcodes : List Byte :=
  [0x01#8, 0x02#8, 0x10#8, 0x11#8, 0x12#8, 0x13#8, 0x20#8, 0x21#8, 0x22#8, 0x23#8, 0x24#8, 0x25#8, 0x26#8, 0x27#8,
   0x30#8, 0x40#8, 0x41#8, 0x42#8, 0x43#8, 0x44#8]

/-- A command word is well formed when its ZERO field (bits 31:8) is 0 and its opcode is assigned (R70, R75). -/
def commandWordWellFormed (w : Word) : Bool :=
  w.extractLsb' 8 24 == 0#24 && assignedOpcodes.contains (w.extractLsb' 0 8)

/-- The byte offset of a host access. -/
def HostAccess.offset : HostAccess → Nat
  | .read _ off => off
  | .write _ off _ => off

/-- The width of a host access. -/
def HostAccess.size : HostAccess → AccessSize
  | .read sz _ => sz
  | .write sz _ _ => sz

/-- The access lies in the 256-byte window (10_state.md R21). -/
def HostAccess.inWindow (a : HostAccess) : Bool := a.offset < 0x100

/-- The access is an aligned 32-bit word (10_state.md R22). -/
def HostAccess.isWord (a : HostAccess) : Bool := a.size == .word && a.offset % 4 == 0

/-- A host access the PSME defines: an aligned word of its window (10_state.md R21, R22). -/
def HostAccess.wellFormed (a : HostAccess) : Bool := a.inWindow && a.isWord

/-- The law of 44_sensor_window.md R182 for a skip helper: `1 <= skip <= SKIP_MAX` and `1 <= extent <= max`. -/
def SkipLaw (f : Nat → Nat → Nat → Nat × Nat) : Prop :=
  ∀ source target mx, 1 ≤ target → target ≤ mx →
    1 ≤ (f source target mx).1 ∧ (f source target mx).1 ≤ 8 ∧
    1 ≤ (f source target mx).2 ∧ (f source target mx).2 ≤ mx

/-- What 44_sensor_window.md R181 says of a size policy's result, for the limits `lo`, `hi` and the alignment `a`:
it lies in `[lo2, hi2]`, the aligned limits. -/
def AlignLaw (f : Nat → Nat → Nat → Nat → Nat) (lo hi a : Nat) : Prop :=
  ∀ x, (lo + 2 ^ a - 1) / 2 ^ a * 2 ^ a ≤ f x lo hi a ∧ f x lo hi a ≤ hi / 2 ^ a * 2 ^ a

/-- The sensor register addresses fit `SNS_ADDR_BITS` (00_scope.md R10). -/
def SnsRegs.Fit (r : SnsRegs) (bits : Nat) : Prop :=
  ∀ a ∈ [r.rowStart, r.colStart, r.winHeight, r.winWidth, r.hBlank, r.vBlank, r.outputControl, r.shutterUpper,
    r.shutterLower, r.readMode2, r.rowAddrMode, r.colAddrMode, r.globalGain], a.toNat < 2 ^ bits

/-- The laws a configuration must meet to stay within the spec (end of 93_implementation_defined.md): the skip
helper's law, `1 <= lo2 <= hi2` for both axes, the size policy's range, 16-bit window limits (10_state.md R28) and
sensor addresses of `SNS_ADDR_BITS` bits. -/
structure Config.Lawful (c : Config) : Prop where
  skip : SkipLaw c.skipFn
  alignWidth : AlignLaw c.alignSize c.snsMinWidth c.snsMaxWidth c.snsWAlign
  alignHeight : AlignLaw c.alignSize c.snsMinHeight c.snsMaxHeight c.snsHAlign
  minWidth : 1 ≤ (c.snsMinWidth + 2 ^ c.snsWAlign - 1) / 2 ^ c.snsWAlign * 2 ^ c.snsWAlign
  minHeight : 1 ≤ (c.snsMinHeight + 2 ^ c.snsHAlign - 1) / 2 ^ c.snsHAlign * 2 ^ c.snsHAlign
  widthRange : (c.snsMinWidth + 2 ^ c.snsWAlign - 1) / 2 ^ c.snsWAlign * 2 ^ c.snsWAlign
    ≤ c.snsMaxWidth / 2 ^ c.snsWAlign * 2 ^ c.snsWAlign
  heightRange : (c.snsMinHeight + 2 ^ c.snsHAlign - 1) / 2 ^ c.snsHAlign * 2 ^ c.snsHAlign
    ≤ c.snsMaxHeight / 2 ^ c.snsHAlign * 2 ^ c.snsHAlign
  widthFits : c.snsMaxWidth < 2 ^ 16
  heightFits : c.snsMaxHeight < 2 ^ 16
  columnSkipFits : (c.columnSkip + 5) / 6 * 6 < 2 ^ 16
  addresses : c.snsReg.Fit c.snsAddrBits

end Sys2Proof
end

