-- ==== Sys2Proof/Decode.lean ====
section
/-! DEFINITION. Decoding a command word (30_encoding.md R72, R73, R75), total on every 32-bit word and rejecting by
name, and after it the encoder. The command word is written to CMD whole, so the decoder reads a word, not bytes
(20_memory.md R57). -/

namespace Sys2Proof

/-- Why a command word does not decode (30_encoding.md R75). Both end the command with IllegalCommand. -/
inductive DecodeError where
  /-- one of bits 31:8 is set -/
  | zeroFieldNotZero (w : Word)
  /-- the opcode is no row of the table of R73 -/
  | reservedOpcode (opcode : Byte)
  deriving DecidableEq, Repr

/-- The opcode map (30_encoding.md R73). -/
def opcodeRow (o : Byte) : Option Instr :=
  match o.toNat with
  | 0x01 => some .drpRead
  | 0x02 => some .drpWrite
  | 0x10 => some .pllSolve
  | 0x11 => some .pllRoundRate
  | 0x12 => some .pllFilter
  | 0x13 => some .pllLock
  | 0x20 => some .pllFields
  | 0x21 => some .pllProgram
  | 0x22 => some .pllSetRate
  | 0x23 => some .clkEnable
  | 0x24 => some .clkDisable
  | 0x25 => some .clkSetParent
  | 0x26 => some .clkGetParent
  | 0x27 => some .pllRecalcRate
  | 0x30 => some .snsWindowSolve
  | 0x40 => some .snsGainCode
  | 0x41 => some .snsShutterCode
  | 0x42 => some .snsSetCtrl
  | 0x43 => some .snsGetFormat
  | 0x44 => some .snsSetFormat
  | _ => none

/-- `decode(w)` (30_encoding.md R72): the ZERO field first, then the opcode. -/
def decode (w : Word) : Except DecodeError Instr :=
  if w.extractLsb' 8 24 ≠ 0#24 then .error (.zeroFieldNotZero w)
  else match opcodeRow (w.extractLsb' 0 8) with
    | some i => .ok i
    | none => .error (.reservedOpcode (w.extractLsb' 0 8))

/-- The opcode of a command, from the table of 30_encoding.md R73. -/
def opcodeOf : Instr → Byte
  | .drpRead => 0x01#8
  | .drpWrite => 0x02#8
  | .pllSolve => 0x10#8
  | .pllRoundRate => 0x11#8
  | .pllFilter => 0x12#8
  | .pllLock => 0x13#8
  | .pllFields => 0x20#8
  | .pllProgram => 0x21#8
  | .pllSetRate => 0x22#8
  | .clkEnable => 0x23#8
  | .clkDisable => 0x24#8
  | .clkSetParent => 0x25#8
  | .clkGetParent => 0x26#8
  | .pllRecalcRate => 0x27#8
  | .snsWindowSolve => 0x30#8
  | .snsGainCode => 0x40#8
  | .snsShutterCode => 0x41#8
  | .snsSetCtrl => 0x42#8
  | .snsGetFormat => 0x43#8
  | .snsSetFormat => 0x44#8

/-- The command word of a command: OPCODE in bits 7:0, ZERO in bits 31:8 (30_encoding.md R70). -/
def encode (i : Instr) : Word := 0#24 ++ opcodeOf i

/-- The instruction the decoder reads from a table row's word of `nbits` bits; the bits above are 0. -/
def decodeTableWord (nbits w : Nat) : Option Instr :=
  match decode (BitVec.ofNat 32 (w % 2 ^ nbits)) with
  | .ok i => some i
  | .error _ => none

end Sys2Proof
end

