-- ==== Sys2Proof/Machine/Arith.lean ====
section
/-! DEFINITION. The arithmetic helpers of 00_scope.md R12, over exact integers. -/

namespace Sys2Proof.Machine

/-- `ceil_div(a, b)` (R12). -/
def ceilDiv (a b : Nat) : Nat := (a + b - 1) / b

/-- `round_div(a, b)`, to nearest, exact halves up (R12). -/
def roundDiv (a b : Nat) : Nat := (a + b / 2) / b

/-- `clamp(x, lo, hi) = min(max(x, lo), hi)` (R12). -/
def clamp (x lo hi : Nat) : Nat := min (max x lo) hi

/-- `floor6(x)` (R12). -/
def floor6 (x : Nat) : Nat := x / 6 * 6

/-- `ceil6(x)` (R12). -/
def ceil6 (x : Nat) : Nat := ceilDiv x 6 * 6

/-- `abs(a - b)` of two naturals (R12). -/
def absDiff (a b : Nat) : Nat := (a - b) + (b - a)

/-- A value below `2^16` fits a sensor register (45_sensor_control.md R201). -/
def fitsHalf (v : Nat) : Bool := v < 2 ^ 16

end Sys2Proof.Machine
end

