-- ==== Sys2Proof/Machine/Params.lean ====
section
/-! DEFINITION. The values this hardware takes (00_scope.md R9): the constants that the source or a decision fixes,
and `psme`, the configuration made of the spec's defaults for every open parameter (log 10). -/

namespace Sys2Proof.Machine

/-! ### Constants of the source and of the decisions (00_scope.md R9) -/

/-- `KHZ`. -/
def kHz : Nat := 1000
/-- `FPFD_MIN`, kHz. -/
def fpfdMin : Nat := 10000
/-- `FPFD_MAX`, kHz. -/
def fpfdMax : Nat := 300000
/-- `FVCO_MIN`, kHz. -/
def fvcoMin : Nat := 600000
/-- `FVCO_MAX`, kHz. -/
def fvcoMax : Nat := 1200000
/-- `D_MAX`. -/
def dMax : Nat := 80
/-- `M_MAX`. -/
def mMax : Nat := 64
/-- `DOUT_MAX`. -/
def doutMax : Nat := 128
/-- `DRP_BUDGET`, the reads of one busy wait (41_drp.md R100). -/
def drpBudget : Nat := 10000
/-- `LOCK_LEN` (10_state.md R37). -/
def lockLen : Nat := 36
/-- `FILTER_DEFAULT` (10_state.md R36). -/
def filterDefault : Word := 0x08008090#32
/-- `LOCK_DEFAULT` (10_state.md R37). -/
def lockDefault : Word := 0x1f1f00fa#32
/-- `NUM_PARENTS` (43_mmcm_encoder.md R160). -/
def numParents : Nat := 2
/-- `SKIP_MAX` (10_state.md R29). -/
def skipMax : Nat := 8
/-- `BIN_MAX` (44_sensor_window.md R184). -/
def binMax : Nat := 3

/-- RESET_CTRL, CLK offset 0x40 (10_state.md R38). -/
def resetCtrl : Word := 0x40#32
/-- CLKSEL, CLK offset 0x44 (10_state.md R38). -/
def clkSel : Word := 0x44#32
/-- DRP_CNTRL, CLK offset 0x70 (10_state.md R38). -/
def drpCntrl : Word := 0x70#32
/-- DRP_STATUS, CLK offset 0x74 (10_state.md R38). -/
def drpStatus : Word := 0x74#32

/-! ### Defaults of the open parameters -/

/-- `FILTER_TABLE` (10_state.md R36): the bands below the default. -/
def filterTable : List FilterBand :=
  [⟨0, 0, 0x01001990#32⟩, ⟨1, 1, 0x01001190#32⟩, ⟨2, 2, 0x01009890#32⟩, ⟨3, 3, 0x01001890#32⟩,
   ⟨4, 4, 0x01008890#32⟩, ⟨5, 8, 0x01009090#32⟩, ⟨9, 11, 0x01000890#32⟩, ⟨12, 12, 0x08009090#32⟩,
   ⟨13, 22, 0x01001090#32⟩, ⟨23, 36, 0x01008090#32⟩, ⟨37, 46, 0x08001090#32⟩]

/-- `LOCK_TABLE` (10_state.md R37): 36 entries, four a line. -/
def lockTable : List Word :=
  [0x060603e8#32, 0x060603e8#32, 0x080803e8#32, 0x0b0b03e8#32,
   0x0e0e03e8#32, 0x111103e8#32, 0x131303e8#32, 0x161603e8#32,
   0x191903e8#32, 0x1c1c03e8#32, 0x1f1f0384#32, 0x1f1f0339#32,
   0x1f1f02ee#32, 0x1f1f02bc#32, 0x1f1f028a#32, 0x1f1f0271#32,
   0x1f1f023f#32, 0x1f1f0226#32, 0x1f1f020d#32, 0x1f1f01f4#32,
   0x1f1f01db#32, 0x1f1f01c2#32, 0x1f1f01a9#32, 0x1f1f0190#32,
   0x1f1f0190#32, 0x1f1f0177#32, 0x1f1f015e#32, 0x1f1f015e#32,
   0x1f1f0145#32, 0x1f1f0145#32, 0x1f1f012c#32, 0x1f1f012c#32,
   0x1f1f012c#32, 0x1f1f0113#32, 0x1f1f0113#32, 0x1f1f0113#32]

/-- The duty word of a CLKOUT or CLKFB divider, `(high << 6) | low` (43_mmcm_encoder.md R153, steps 1 and 3). -/
def packDuty (f : DividerFields) : Nat := f.high <<< 6 ||| f.low

/-- The edge word of a CLKOUT or CLKFB divider, `(edge << 7) | (noCount << 6)` (R153, steps 2 and 4). -/
def packEdge (f : DividerFields) : Nat := f.edge <<< 7 ||| f.noCount <<< 6

/-- The DIVCLK word (R153, step 5). -/
def packDivclk (f : DividerFields) : Nat := f.edge <<< 13 ||| f.noCount <<< 12 ||| f.high <<< 6 ||| f.low

/-- `MMCM_PACK` (43_mmcm_encoder.md R153), the ten sub-writes in order. -/
def mmcmPack : List PackRow :=
  [⟨0x08#12, fun x => packDuty x.fdout, 0xEFFF#16⟩,
   ⟨0x09#12, fun x => packEdge x.fdout, 0x03FF#16⟩,
   ⟨0x14#12, fun x => packDuty x.fm, 0xEFFF#16⟩,
   ⟨0x15#12, fun x => packEdge x.fm, 0x03FF#16⟩,
   ⟨0x16#12, fun x => packDivclk x.fd, 0x3FFF#16⟩,
   ⟨0x18#12, fun x => (x.lock.extractLsb' 0 10).toNat, 0x03FF#16⟩,
   ⟨0x19#12, fun x => (x.lock.extractLsb' 16 5).toNat <<< 10 ||| 0x0001, 0x7FFF#16⟩,
   ⟨0x1a#12, fun x => (x.lock.extractLsb' 24 5).toNat <<< 10 ||| 0x03E9, 0x7FFF#16⟩,
   ⟨0x4e#12, fun x => (x.filter.extractLsb' 16 16).toNat, 0x9900#16⟩,
   ⟨0x4f#12, fun x => (x.filter.extractLsb' 0 16).toNat, 0x9900#16⟩]

/-- `DecodeDivider(v) = v[5:0] + v[11:6]` (43_mmcm_encoder.md R162). -/
def decodeDivider (v : Half) : Nat := (v.extractLsb' 0 6).toNat + (v.extractLsb' 6 6).toNat

/-- The PSME's `SKIP_FN` (44_sensor_window.md R183). -/
def skipFn (source target mx : Nat) : Nat × Nat :=
  if source < target + target / 2 then (1, target)
  else
    let skip := min (min mx (source + target / 2) / target) skipMax
    (skip, target * skip)

/-- `AlignSize(x, lo, hi, a)` (44_sensor_window.md R181). -/
def alignSize (x lo hi a : Nat) : Nat :=
  let q := 1 <<< a
  let lo2 := ceilDiv lo q * q
  let hi2 := hi / q * q
  let y := clamp x lo2 hi2
  if a > 0 then (y + q / 2) / q * q else y

/-- `SNS_REG`: the sensor register addresses (10_state.md R40). -/
def snsReg : SnsRegs :=
  { rowStart := 0x01#16, colStart := 0x02#16, winHeight := 0x03#16, winWidth := 0x04#16, hBlank := 0x05#16,
    vBlank := 0x06#16, outputControl := 0x07#16, shutterUpper := 0x08#16, shutterLower := 0x09#16,
    readMode2 := 0x20#16, rowAddrMode := 0x22#16, colAddrMode := 0x23#16, globalGain := 0x35#16 }

/-- This hardware: every open parameter at the spec's default (00_scope.md R9; log 10). PRESUMED where the spec marks
the value as general knowledge (93_implementation_defined.md G1 to G18). -/
def psme : Config where
  mBoundMode := .exact
  filterTable := filterTable
  lockTable := lockTable
  splitHigh := fun divider => divider / 2
  mmcmPack := mmcmPack
  decodeDivider := decodeDivider
  skipFn := skipFn
  alignSize := alignSize
  snsMinWidth := 2
  snsMaxWidth := 2048
  snsMinHeight := 2
  snsMaxHeight := 1536
  snsWAlign := 1
  snsHAlign := 1
  columnSkip := 32
  rowSkip := 20
  hBlank := 142
  vBlank := 25
  ySkipTop := 0
  snsAddrBits := 8
  snsReg := snsReg
  outputHoldMask := 0x0001#16
  outputHoldIsSet := true
  hFlipMask := 0x4000#16
  vFlipMask := 0x8000#16
  shutterUpperFirst := true
  winWidthReg := fun width => width - 1
  winHeightReg := fun height skipTop => height + skipTop - 1
  fmtCode := 0x3007#32
  fmtColorspace := 8#32
  fmtField := 1#32
  aeModeReset := true

end Sys2Proof.Machine
end

