-- ==== Sys2Proof/Machine/State.lean ====
section
/-! DEFINITION. The state of the PSME (10_state.md R20 to R35), its reset value (70_reset_and_hazards.md R271), and
the reasons a step can stop. State is plain data. Four fields are the model's own and no state of the PSME: `inputs`,
`trace`, `hostReads` and `draws` (logs 2, 3, 5, 6). -/

namespace Sys2Proof.Machine

/-- The engine phase (10_state.md R23). It is also STATUS.BUSY (R35 (b); log 8). -/
inductive Phase where
  | idle
  | run
  deriving DecidableEq, Repr

/-- The outcome codes of STATUS.ERR (60_exceptions.md R240). -/
inductive ErrCode where
  | ok
  | invalidRequest
  | noFeasibleSolution
  | timeout
  | ioError
  | illegalCommand
  deriving DecidableEq, Repr

/-- An error a command raises, with its record (00_scope.md R15, 60_exceptions.md R245): the port and the address of
the failing transaction, for Timeout and IoError. -/
inductive Err where
  | invalidRequest
  | noFeasibleSolution
  | timeout (p : Port) (addr : Word)
  | ioError (p : Port) (addr : Word)
  | illegalCommand
  deriving DecidableEq, Repr

/-- SensorRect: the physical pixel window (10_state.md R28). -/
structure Rect where
  left : Half
  top : Half
  width : Half
  height : Half
  deriving DecidableEq, Repr

/-- A triple of the PLL search with its error in kHz: the working values `best_err`, `best_d`, `best_m`, `best_dout`
(10_state.md R35 (d), 42_pll_solver.md R124). The dividers are stored in u8 fields (R43); the error is an exact
integer, whose width no rule gives. -/
structure Best where
  err : Nat
  d : Byte
  m : Byte
  dout : Byte
  deriving DecidableEq, Repr

/-- One staged write of persistent state, `S.X <- v` (00_scope.md R13). There is none of `S.Y_SKIP_TOP`, which no
command writes (10_state.md R31). -/
inductive StateWrite where
  | rect (r : Rect)
  | xskip (v : Nibble)
  | yskip (v : Nibble)
  | totalLineTime (v : Word)
  | aeMode (automatic : Bool)
  deriving DecidableEq, Repr

/-- The request of a channel transaction (20_memory.md R52). -/
inductive ChanOp where
  | read
  | write (v : Word)
  deriving DecidableEq, Repr

/-- What became of a channel transaction. `unanswered` is one that a reset left in flight (70_reset_and_hazards.md
R270; log 4). -/
inductive Reply where
  /-- a read answered this value -/
  | value (v : Word)
  /-- a write succeeded -/
  | done
  | ioError
  | unanswered
  deriving DecidableEq, Repr

/-- One channel transaction as seen at the port (60_exceptions.md R256). SNS data is zero-extended. -/
structure Transaction where
  port : Port
  addr : Word
  op : ChanOp
  reply : Reply
  deriving DecidableEq, Repr

/-- One host read and the value the PSME answered. -/
structure HostRead where
  offset : Nat
  value : Word
  deriving DecidableEq, Repr

/-- Why the machine stops with a fault. -/
inductive Fault where
  /-- Raised by `step` for a host access at an offset of 0x100 or more: no address of the PSME's 256-byte window
  (10_state.md R21; log 7). Safe: nothing is claimed of what lies outside the window. -/
  | outsideHostWindow (offset : Nat)
  deriving DecidableEq, Repr

/-- Why the machine refuses. -/
inductive Refusal where
  /-- For an instruction that has no meaning yet: no arm of `exec` raises it. Safe. -/
  | notModelled (mnemonic : String)
  /-- Raised by `step` for a host access that is not an aligned 32-bit word (10_state.md R22, U1 of
  93_implementation_defined.md: "refuse"; log 7). Safe: the spec defines no such access. -/
  | hostAccessNotWord (a : HostAccess)
  deriving DecidableEq, Repr

/-- The PSME's state. -/
structure State where
  /-- CMD's read value, the last accepted command word (R21, R26) -/
  cmd : Word
  /-- STATUS.DONE (R27) -/
  done : Bool
  /-- STATUS.OVERRUN (R27) -/
  overrun : Bool
  /-- STATUS.ERR (R27, R240) -/
  err : ErrCode
  /-- STATUS.OPCODE (R27) -/
  opcode : Byte
  /-- ERRINFO (R34) -/
  errInfo : Word
  /-- ARG0 to ARG7 (R24) -/
  arg : Vector Word 8
  /-- RES0 to RES7 (R25) -/
  res : Vector Word 8
  /-- LATCH[0..7], the arguments of the running command (R24, R35 (a)) -/
  latch : Vector Word 8
  /-- S.RECT (R28) -/
  rect : Rect
  /-- S.XSKIP (R29) -/
  xskip : Nibble
  /-- S.YSKIP (R29) -/
  yskip : Nibble
  /-- S.TOTAL_LINE_TIME (R30) -/
  totalLineTime : Word
  /-- S.Y_SKIP_TOP (R31) -/
  ySkipTop : Half
  /-- S.AE_MODE: `true` = automatic (R32) -/
  aeMode : Bool
  /-- the engine phase, and STATUS.BUSY (R23, R35 (b)) -/
  phase : Phase
  /-- the busy-wait iteration counter (R35 (c), R101) -/
  busyCount : Nat
  /-- the PLL search's working values (R35 (d)) -/
  search : Option Best
  /-- staged results, oldest first (R35 (e)) -/
  stagedRes : List (Fin 8 × Word)
  /-- staged persistent state, oldest first (R35 (e)) -/
  stagedState : List StateWrite
  /-- MODEL: the pending inputs, in order of arrival (log 2) -/
  inputs : List Input
  /-- MODEL: the channel transactions made, oldest first (log 5) -/
  trace : List Transaction
  /-- MODEL: the host's reads and their values, oldest first (log 6) -/
  hostReads : List HostRead
  /-- MODEL: how many free channel answers were drawn (log 3) -/
  draws : Nat
  deriving DecidableEq, Repr

/-- The state right after reset (70_reset_and_hazards.md R271), with no input pending and nothing recorded. -/
def State.reset : State where
  cmd := 0#32
  done := false
  overrun := false
  err := .ok
  opcode := 0#8
  errInfo := 0#32
  arg := Vector.replicate 8 0#32
  res := Vector.replicate 8 0#32
  latch := Vector.replicate 8 0#32
  rect := { left := BitVec.ofNat 16 psme.columnSkip, top := BitVec.ofNat 16 psme.rowSkip,
            width := BitVec.ofNat 16 psme.snsMaxWidth, height := BitVec.ofNat 16 psme.snsMaxHeight }
  xskip := 1#4
  yskip := 1#4
  totalLineTime := 0#32
  ySkipTop := BitVec.ofNat 16 psme.ySkipTop
  aeMode := psme.aeModeReset
  phase := .idle
  busyCount := 0
  search := none
  stagedRes := []
  stagedState := []
  inputs := []
  trace := []
  hostReads := []
  draws := 0

end Sys2Proof.Machine
end

