-- ==== Sys2Proof/Machine/Flags.lean ====
section
/-! DEFINITION. The status flags and the error record: the STATUS word (10_state.md R27), the outcome codes
(60_exceptions.md R240), ERRINFO (10_state.md R34) and the SKIP view (10_state.md R21, R29). The PSME has no condition
codes and no arithmetic flags (10_state.md R42). -/

namespace Sys2Proof.Machine

/-- The number of an outcome code (R240). -/
def ErrCode.code : ErrCode → BitVec 4
  | .ok => 0#4
  | .invalidRequest => 1#4
  | .noFeasibleSolution => 2#4
  | .timeout => 3#4
  | .ioError => 4#4
  | .illegalCommand => 5#4

/-- The outcome code of an error (R240). -/
def Err.errCode : Err → ErrCode
  | .invalidRequest => .invalidRequest
  | .noFeasibleSolution => .noFeasibleSolution
  | .timeout _ _ => .timeout
  | .ioError _ _ => .ioError
  | .illegalCommand => .illegalCommand

/-- The port field of ERRINFO: 01 = CLK, 10 = SNS (R34). -/
def portCode : Port → BitVec 2
  | .clk => 1#2
  | .sns => 2#2

/-- ERRINFO's word for a failing transaction: VALID in bit 31, the port in 29:28, the address in 15:0 (R34). -/
def errRecord (p : Port) (addr : Word) : Word :=
  (1#32 <<< 31) ||| ((portCode p).setWidth 32 <<< 28) ||| (addr.extractLsb' 0 16).setWidth 32

/-- ERRINFO after a command that ended with this error (R34, R246). -/
def Err.info : Err → Word
  | .timeout p addr => errRecord p addr
  | .ioError p addr => errRecord p addr
  | .invalidRequest => 0#32
  | .noFeasibleSolution => 0#32
  | .illegalCommand => 0#32

/-- STATUS.BUSY (R27, R35 (b)). -/
def State.busy (s : State) : Bool := s.phase == .run

/-- The STATUS word: BUSY 0, DONE 1, OVERRUN 2, ERR 7:4, OPCODE 15:8, the other bits 0 (R27). -/
def statusWord (s : State) : Word :=
  (BitVec.ofBool s.busy).setWidth 32 ||| ((BitVec.ofBool s.done).setWidth 32 <<< 1)
    ||| ((BitVec.ofBool s.overrun).setWidth 32 <<< 2) ||| (s.err.code.setWidth 32 <<< 4)
    ||| (s.opcode.setWidth 32 <<< 8)

/-- The binning factor of a skip factor, `min(skip, BIN_MAX)` (10_state.md R29, 44_sensor_window.md R184). -/
def binOf (skip : Nat) : Nat := min skip binMax

/-- The SKIP word: xskip 3:0, yskip 7:4, xbin 11:8, ybin 15:12 (10_state.md R21). -/
def skipWord (s : State) : Word :=
  s.xskip.setWidth 32 ||| (s.yskip.setWidth 32 <<< 4) ||| (BitVec.ofNat 32 (binOf s.xskip.toNat) <<< 8)
    ||| (BitVec.ofNat 32 (binOf s.yskip.toNat) <<< 12)

end Sys2Proof.Machine
end

