-- ==== Sys2Proof/Machine/HostPort.lean ====
section
/-! DEFINITION. The host window (10_state.md R21 to R27) and the reset input (70_reset_and_hazards.md R270). -/

namespace Sys2Proof.Machine

/-- The registers of the host window (10_state.md R21). -/
inductive HostReg where
  | cmd
  | status
  | errInfo
  | arg (i : Fin 8)
  | res (i : Fin 8)
  | rectLeft
  | rectTop
  | rectWidth
  | rectHeight
  | skip
  | totalLineTime
  | ySkipTop
  | aeMode
  | reserved
  deriving DecidableEq, Repr

/-- The register at a word-aligned offset of the window (R21). -/
def hostRegAt (off : Nat) : HostReg :=
  if h : 0x10 ≤ off ∧ off < 0x30 then .arg ⟨(off - 0x10) / 4, by omega⟩
  else if h : 0x30 ≤ off ∧ off < 0x50 then .res ⟨(off - 0x30) / 4, by omega⟩
  else match off with
    | 0x00 => .cmd
    | 0x04 => .status
    | 0x08 => .errInfo
    | 0x50 => .rectLeft
    | 0x54 => .rectTop
    | 0x58 => .rectWidth
    | 0x5C => .rectHeight
    | 0x60 => .skip
    | 0x64 => .totalLineTime
    | 0x68 => .ySkipTop
    | 0x6C => .aeMode
    | _ => .reserved

/-- What a host read of a register answers (R21, R22, R33). -/
def readHostReg (r : HostReg) (s : State) : Word :=
  match r with
  | .cmd => s.cmd
  | .status => statusWord s
  | .errInfo => s.errInfo
  | .arg i => s.arg.get i
  | .res i => s.res.get i
  | .rectLeft => s.rect.left.setWidth 32
  | .rectTop => s.rect.top.setWidth 32
  | .rectWidth => s.rect.width.setWidth 32
  | .rectHeight => s.rect.height.setWidth 32
  | .skip => skipWord s
  | .totalLineTime => s.totalLineTime
  | .ySkipTop => s.ySkipTop.setWidth 32
  | .aeMode => (BitVec.ofBool s.aeMode).setWidth 32
  | .reserved => 0#32

/-- Acceptance of a command word (10_state.md R26): the arguments are latched, CMD reads the word, BUSY is set and
DONE and ERR cleared, OPCODE takes bits 7:0, ERRINFO is cleared, the phase is RUN. OVERRUN is sticky and stays. It
also stands for what a return from an error is here: it clears the record (60_exceptions.md R248). -/
def accept (w : Word) (s : State) : State :=
  { s with latch := s.arg, cmd := w, phase := .run, done := false, err := .ok, opcode := w.extractLsb' 0 8,
           errInfo := 0#32 }

/-- A host write of CMD: accepted when BUSY = 0, otherwise it sets OVERRUN and nothing else (R26). -/
def writeCmd (w : Word) (s : State) : State :=
  match s.phase with
  | .idle => accept w s
  | .run => { s with overrun := true }

/-- A host write of STATUS: bit 2 = 1 clears OVERRUN, nothing else changes (R27). -/
def writeStatus (w : Word) (s : State) : State :=
  if w.getLsbD 2 then { s with overrun := false } else s

/-- A host write of a register. A write to a read-only register or a reserved offset has no effect (R22). -/
def writeHostReg (r : HostReg) (w : Word) (s : State) : State :=
  match r with
  | .cmd => writeCmd w s
  | .status => writeStatus w s
  | .arg i => { s with arg := s.arg.set i w }
  | .errInfo | .res _ | .rectLeft | .rectTop | .rectWidth | .rectHeight | .skip | .totalLineTime | .ySkipTop
  | .aeMode | .reserved => s

/-- A host access of an aligned word of the window (R22). What a read answers is recorded (log 6). -/
def hostAccess (a : HostAccess) (s : State) : State :=
  match a with
  | .read _ off => { s with hostReads := s.hostReads ++ [⟨off, readHostReg (hostRegAt off) s⟩] }
  | .write _ off w => writeHostReg (hostRegAt off) w s

/-- The reset input: every piece of PSME state takes its reset value, whatever the phase (70_reset_and_hazards.md
R270, R271). The model's own fields are no PSME state and stay (DESIGN CHOICE, log 14). -/
def resetInput (s : State) : State :=
  { State.reset with inputs := s.inputs, trace := s.trace, hostReads := s.hostReads, draws := s.draws }

/-- One host access that the engine's step takes in IDLE: outside the window a fault, not an aligned word a refusal,
else the access (R21, R22; log 7). -/
def hostStep (a : HostAccess) (s : State) : Host.Outcome State Fault Refusal :=
  if a.inWindow = false then .fault (.outsideHostWindow a.offset)
  else if a.isWord = false then .refused (.hostAccessNotWord a)
  else .next (hostAccess a s)

/-- One step in IDLE (10_state.md R23): the next input, or waiting when there is none. An answer that no transaction
waits for, and an `issued` that no command is there for, are ignored (log 4). -/
def idleStep (s : State) : Host.Outcome State Fault Refusal :=
  match s.inputs with
  | [] => .next s
  | .host a :: rest => hostStep a { s with inputs := rest }
  | .hostBusy a :: rest => hostStep a { s with inputs := rest }
  | .answer _ :: rest => .next { s with inputs := rest }
  | .issued :: rest => .next { s with inputs := rest }
  | .reset :: rest => .next (resetInput { s with inputs := rest })

end Sys2Proof.Machine
end

