-- ==== Sys2Proof/Machine/Ops.lean ====
section
/-! DEFINITION. The operations every command is written over: sequencing (00_scope.md R15), the inputs that land while
a command runs (log 2), channel transactions (20_memory.md R52 to R55), staging (00_scope.md R13), raising an error
(60_exceptions.md R245) and the completion step (60_exceptions.md R246). -/

namespace Sys2Proof.Machine

/-! ### Sequences -/

/-- How a part of a command's sequence ends: with a value, with a raised error, or by a reset that abandoned the
command (the state is then the one after the reset). -/
inductive Res (α : Type) where
  | ok (a : α) (s : State)
  | raise (e : Err) (s : State)
  | reset (s : State)

/-- A part of a command's sequence (00_scope.md R15). -/
def Cmd (α : Type) : Type := State → Res α

/-- `return a` (00_scope.md R15). -/
def Cmd.ret {α : Type} (a : α) : Cmd α := fun s => .ok a s

/-- `let x = c` and the rest of the sequence: an error or a reset ends it (00_scope.md R15). -/
def Cmd.bind {α β : Type} (c : Cmd α) (f : α → Cmd β) : Cmd β := fun s =>
  match c s with
  | .ok a t => f a t
  | .raise e t => .raise e t
  | .reset t => .reset t

/-- `c`, then `d`. -/
def Cmd.andThen {α β : Type} (c : Cmd α) (d : Cmd β) : Cmd β := c.bind fun _ => d

/-- `raise E(info)` (00_scope.md R15, 60_exceptions.md R245). -/
def raise {α : Type} (e : Err) : Cmd α := fun s => .raise e s

/-- `if not ok: raise E(info)`. -/
def require (ok : Bool) (e : Err) : Cmd Unit := if ok then Cmd.ret () else raise e

/-- A value that some condition may leave undefined: `raise E` when it does. -/
def orRaise {α : Type} (e : Err) (x : Option α) : Cmd α :=
  match x with
  | none => raise e
  | some a => Cmd.ret a

/-- The current state: `S.X` reads the persistent state from before the command, since its writes are staged
(10_state.md R33). -/
def current : Cmd State := fun s => .ok s s

/-! ### Inputs that land while a command runs -/

/-- What the inputs at the head of the list did: the command goes on, or a reset abandoned it. -/
inductive Landing where
  | go (s : State)
  | reset (s : State)

/-- The host accesses marked `hostBusy` and the resets at the head of the list land now (log 2). An access that the
PSME does not define stays, and `step` stops on it once the engine is IDLE (log 7). -/
def landBusy : List Input → State → Landing
  | .hostBusy a :: rest, s =>
    if a.wellFormed then landBusy rest (hostAccess a s) else .go { s with inputs := .hostBusy a :: rest }
  | .reset :: rest, s => .reset (resetInput { s with inputs := rest })
  | .host a :: rest, s => .go { s with inputs := .host a :: rest }
  | .answer a :: rest, s => .go { s with inputs := .answer a :: rest }
  | .issued :: rest, s => .go { s with inputs := .issued :: rest }
  | [], s => .go { s with inputs := [] }

/-- The inputs that land while the transaction just issued waits for its answer: those after the `issued` that marks
it (log 2). -/
def landInFlight (s : State) : Landing :=
  match s.inputs with
  | .issued :: rest => landBusy rest s
  | _ => .go s

/-! ### Channel transactions -/

/-- What a port makes of an answer: a u32 on CLK, a u16 on SNS (20_memory.md R53). -/
def portAnswer (p : Port) : Answer → Answer
  | .ioError => .ioError
  | .value v =>
    match p with
    | .clk => .value v
    | .sns => .value ((v.extractLsb' 0 16).setWidth 32)

/-- The answer of the transaction that waits: the next of the input list, else the next free one (20_memory.md R52;
log 3). -/
def takeAnswer (s : State) : Answer × State :=
  match s.inputs with
  | .answer a :: rest => (a, { s with inputs := rest })
  | _ => (Config.freeAnswer s.draws, { s with draws := s.draws + 1 })

/-- What the trace records of an answered transaction. -/
def replyOf (op : ChanOp) : Answer → Reply
  | .ioError => .ioError
  | .value v =>
    match op with
    | .read => .value v
    | .write _ => .done

/-- The inputs that land before a channel transaction is issued: a reset abandons the command without it. -/
def settle : Cmd Unit := fun s =>
  match landBusy s.inputs s with
  | .go t => .ok () t
  | .reset t => .reset t

/-- A channel transaction from its issue on: the inputs that land while it waits, and its answer (20_memory.md R52).
It is recorded in the trace; a reset leaves it unanswered (70_reset_and_hazards.md R270; log 4). -/
def inFlight (p : Port) (addr : Word) (op : ChanOp) : Cmd Answer := fun s =>
  match landInFlight s with
  | .reset t => .reset { t with trace := t.trace ++ [⟨p, addr, op, .unanswered⟩] }
  | .go t =>
    let a := portAnswer p (takeAnswer t).1
    .ok a { (takeAnswer t).2 with trace := t.trace ++ [⟨p, addr, op, replyOf op a⟩] }

/-- One channel transaction: the inputs that land before it is issued, then the transaction (20_memory.md R52, R61). -/
def transact (p : Port) (addr : Word) (op : ChanOp) : Cmd Answer := settle.andThen (inFlight p addr op)

/-- `MemRead(p, a, n)` (20_memory.md R53). -/
def memRead (p : Port) (addr : Word) : Cmd Word :=
  (transact p addr .read).bind fun
    | .value v => Cmd.ret v
    | .ioError => raise (.ioError p addr)

/-- `MemWrite(p, a, n, v)` (20_memory.md R54). -/
def memWrite (p : Port) (addr : Word) (v : Word) : Cmd Unit :=
  (transact p addr (.write v)).bind fun
    | .value _ => Cmd.ret ()
    | .ioError => raise (.ioError p addr)

/-- `MemRead(SNS, a, 2)`. -/
def snsRead (a : Half) : Cmd Half :=
  (memRead .sns (a.setWidth 32)).bind fun v => Cmd.ret (v.extractLsb' 0 16)

/-- `MemWrite(SNS, a, 2, v)`. -/
def snsWrite (a : Half) (v : Half) : Cmd Unit := memWrite .sns (a.setWidth 32) (v.setWidth 32)

/-- `SnsUpdate(a, mask, set)`: a read and always a write (20_memory.md R55). -/
def snsUpdate (a : Half) (mask : Half) (set : Bool) : Cmd Unit :=
  (snsRead a).bind fun old => snsWrite a (if set then old ||| mask else old &&& ~~~mask)

/-! ### Staging -/

/-- `RES[i] <- v` (00_scope.md R13). -/
def stageRes (i : Fin 8) (v : Word) : Cmd Unit := fun s =>
  .ok () { s with stagedRes := s.stagedRes ++ [(i, v)] }

/-- `S.X <- v` (00_scope.md R13). -/
def stageState (w : StateWrite) : Cmd Unit := fun s =>
  .ok () { s with stagedState := s.stagedState ++ [w] }

/-- The staged results, from RES[i] upwards: `RES[i] <- v0; RES[i+1] <- v1; ...` for the values given. -/
def stageResults : List (Fin 8 × Word) → Cmd Unit
  | [] => Cmd.ret ()
  | (i, v) :: rest => (stageRes i v).andThen (stageResults rest)

/-- One staged result becomes visible. -/
def commitRes (r : Vector Word 8) (w : Fin 8 × Word) : Vector Word 8 := r.set w.1 w.2

/-- One staged persistent write becomes visible. -/
def commitState (s : State) (w : StateWrite) : State :=
  match w with
  | .rect r => { s with rect := r }
  | .xskip v => { s with xskip := v }
  | .yskip v => { s with yskip := v }
  | .totalLineTime v => { s with totalLineTime := v }
  | .aeMode b => { s with aeMode := b }

/-! ### Raising an error and completing -/

/-- Hidden working state, empty: none of it survives the end of a command (10_state.md R35). -/
def clearHidden (s : State) : State :=
  { s with busyCount := 0, search := none, stagedRes := [], stagedState := [] }

/-- What every completion sets, whatever the outcome (60_exceptions.md R246): ERR, ERRINFO, DONE, BUSY and the phase. -/
def finish (code : ErrCode) (info : Word) (s : State) : State :=
  { clearHidden s with err := code, errInfo := info, done := true, phase := .idle }

/-- `Complete(OK)`: every staged result and every staged persistent write becomes visible, in order (R246). -/
def completeOk (s : State) : State :=
  finish .ok 0#32 (s.stagedState.foldl commitState { s with res := s.stagedRes.foldl commitRes s.res })

/-- `Complete(E, info)` after `raise E(info)`: what was staged is discarded (R245, R246). TAKING AN EXCEPTION, as far as
the PSME has one (R248): the record goes to STATUS.ERR and ERRINFO, the engine returns to IDLE. -/
def completeErr (e : Err) (s : State) : State := finish e.errCode e.info s

/-- The RUN phase begins with no hidden working state (10_state.md R35; log 9). -/
def beginRun (s : State) : State := { clearHidden s with phase := .run }

/-- The whole of a command: the inputs that land first, its sequence, and the completion step, which ends every
accepted command that no reset abandons (R246). -/
def runCommand (body : Cmd Unit) (s : State) : State :=
  match (settle.andThen body) (beginRun s) with
  | .ok _ t => completeOk t
  | .raise e t => completeErr e t
  | .reset t => t

/-- An undecodable command word: IllegalCommand, raised at decode (30_encoding.md R72, 60_exceptions.md R244). -/
def execIllegal (s : State) : Host.Outcome State Fault Refusal := .next (runCommand (raise .illegalCommand) s)

end Sys2Proof.Machine
end

