-- ==== Sys2Proof/Machine/Operands.lean ====
section
/-! DEFINITION. The operand forms (30_encoding.md R71). A required condition that fails raises InvalidRequest; every
form is read before the first channel access. `ARG[i]` is the latch (10_state.md R24). -/

namespace Sys2Proof.Machine

/-- The latched argument `ARG[i]` (10_state.md R24, 00_scope.md R13). -/
def argWord (i : Fin 8) : Cmd Word := fun s => .ok (s.latch.get i) s

/-- `u32`: the 32-bit value unchanged, as an exact integer. -/
def argU32 (i : Fin 8) : Cmd Nat := (argWord i).bind fun w => Cmd.ret w.toNat

/-- `s32`: the 32-bit value as two's complement. -/
def argS32 (i : Fin 8) : Cmd Int := (argWord i).bind fun w => Cmd.ret w.toInt

/-- `bool`: bit 0, with bits 31:1 required to be 0. -/
def argBool (i : Fin 8) : Cmd Bool :=
  (argWord i).bind fun w =>
    (require (decide (w.toNat ≤ 1)) .invalidRequest).andThen (Cmd.ret (w == 1#32))

/-- `u16`: the value, with bits 31:16 required to be 0. -/
def argU16 (i : Fin 8) : Cmd Half :=
  (argWord i).bind fun w =>
    (require (decide (w.toNat < 0x10000)) .invalidRequest).andThen (Cmd.ret (w.extractLsb' 0 16))

/-- `idx12`: the value, required to be below 0x1000. -/
def argIdx12 (i : Fin 8) : Cmd SubIndex :=
  (argWord i).bind fun w =>
    (require (decide (w.toNat < 0x1000)) .invalidRequest).andThen (Cmd.ret (w.extractLsb' 0 12))

end Sys2Proof.Machine
end

