-- ==== Sys2Proof/Machine/Drp.lean ====
section
/-! DEFINITION. The DRP protocol (41_drp.md): the busy wait, the control word, the sub-register procedures, and the
commands DRP_READ and DRP_WRITE. -/

namespace Sys2Proof.Machine

/-- The busy-wait counter is cleared at the start of each busy wait (41_drp.md R101). -/
def clearCount : Cmd Unit := fun s => .ok () { s with busyCount := 0 }

/-- The busy-wait counter counts one read (41_drp.md R101). -/
def countRead : Cmd Unit := fun s => .ok () { s with busyCount := s.busyCount + 1 }

/-- The polls of a busy wait with `n` reads of its budget left (41_drp.md R100). -/
def pollLoop : Nat → Cmd Half
  | 0 => raise (.timeout .clk drpStatus)
  | n + 1 => countRead.andThen ((memRead .clk drpStatus).bind fun v =>
      if v.getLsbD 16 then pollLoop n else Cmd.ret (v.extractLsb' 0 16))

/-- `BusyWait()` (41_drp.md R100): at most `DRP_BUDGET` reads of DRP_STATUS. -/
def busyWait : Cmd Half := clearCount.andThen (pollLoop drpBudget)

/-- `CtrlWord(read, idx, data)` (41_drp.md R103): SEL in bit 29, READ in bit 28, INDEX in 27:16, DATA in 15:0. -/
def ctrlWord (read : Bool) (idx : SubIndex) (data : Half) : Word :=
  (1#32 <<< 29) ||| ((BitVec.ofBool read).setWidth 32 <<< 28) ||| (idx.setWidth 32 <<< 16) ||| data.setWidth 32

/-- `DrpRead(idx)` (41_drp.md R104). -/
def drpRead (idx : SubIndex) : Cmd Half :=
  busyWait.andThen ((memWrite .clk drpCntrl (ctrlWord true idx 0#16)).andThen busyWait)

/-- What the masked update keeps of the old value (41_drp.md R105): nothing under the full mask, which makes no read. -/
def drpBase (idx : SubIndex) (mask : Half) : Cmd Half :=
  if mask ≠ 0xFFFF#16 then (drpRead idx).bind fun old => Cmd.ret (old &&& ~~~mask) else Cmd.ret 0#16

/-- `DrpWrite(idx, value, mask)` (41_drp.md R105). It does not wait for the write to finish (20_memory.md R63). -/
def drpWrite (idx : SubIndex) (value mask : Half) : Cmd Unit :=
  busyWait.andThen ((drpBase idx mask).bind fun base =>
    memWrite .clk drpCntrl (ctrlWord false idx (base ||| (value &&& mask))))

/-- DRP_READ's sequence (41_drp.md R106). -/
def drpReadBody : Cmd Unit :=
  (argIdx12 0).bind fun idx =>
  (drpRead idx).bind fun v =>
  stageRes 0 (v.setWidth 32)

/-- DRP_READ (41_drp.md R106). -/
def execDrpRead (s : State) : Host.Outcome State Fault Refusal := .next (runCommand drpReadBody s)

/-- DRP_WRITE's sequence (41_drp.md R107). -/
def drpWriteBody : Cmd Unit :=
  (argIdx12 0).bind fun idx =>
  (argU16 1).bind fun value =>
  (argU16 2).bind fun mask =>
  drpWrite idx value mask

/-- DRP_WRITE (41_drp.md R107). -/
def execDrpWrite (s : State) : Host.Outcome State Fault Refusal := .next (runCommand drpWriteBody s)

end Sys2Proof.Machine
end

