-- ==== Sys2Proof/Machine/PllSolver.lean ====
section
/-! DEFINITION. The PLL parameter solver (42_pll_solver.md): the request check, the bounds, the search, the table
lookups, and the commands PLL_SOLVE, PLL_ROUND_RATE, PLL_FILTER and PLL_LOCK. -/

namespace Sys2Proof.Machine

/-- `CheckAndScale` (42_pll_solver.md R120): `(fin, fout)` in kHz, or `none` for InvalidRequest. -/
def checkAndScale (parentRateHz targetRateHz : Nat) : Option (Nat × Nat) :=
  if parentRateHz = 0 ∨ targetRateHz = 0 then none
  else if targetRateHz / kHz = 0 then none
  else some (parentRateHz / kHz, targetRateHz / kHz)

/-- `d_min` (42_pll_solver.md R122). -/
def dMinOf (fin : Nat) : Nat := max (ceilDiv fin fpfdMax) 1

/-- `d_max` (42_pll_solver.md R122). -/
def dMaxOf (fin : Nat) : Nat := min (fin / fpfdMin) dMax

/-- `m_min` (42_pll_solver.md R123). -/
def mMinOf (mode : MBoundMode) (fin dMn : Nat) : Nat :=
  match mode with
  | .exact => max (ceilDiv (fvcoMin * dMn) fin) 1
  | .legacy => max (ceilDiv fvcoMin fin * dMn) 1

/-- `m_max` (42_pll_solver.md R123). -/
def mMaxOf (fin dMx : Nat) : Nat := min (fvcoMax * dMx / fin) mMax

/-- `dl`, the least `d` visited at this `m` (42_pll_solver.md R124). -/
def dLowOf (fin m dMn : Nat) : Nat := max dMn (ceilDiv (fin * m) fvcoMax)

/-- `dh`, the greatest `d` visited at this `m` (42_pll_solver.md R124). -/
def dHighOf (fin m dMx : Nat) : Nat := min dMx (fin * m / fvcoMin)

/-- The candidate of a pair: its `dout` and its error in kHz (42_pll_solver.md R124). The three dividers lie below 2^8
(R121, R124), so their u8 fields hold them whole (10_state.md R43). -/
def candidate (fin fout m d : Nat) : Best :=
  let fvco := fin * m / d
  let dout := clamp (roundDiv fvco fout) 1 doutMax
  let f := fvco / dout
  { err := absDiff f fout, d := BitVec.ofNat 8 d, m := BitVec.ofNat 8 m, dout := BitVec.ofNat 8 dout }

/-- A candidate replaces the best only when its error is strictly smaller (42_pll_solver.md R124, R125). -/
def keepBetter (best : Option Best) (c : Best) : Option Best :=
  match best with
  | none => some c
  | some b => if c.err < b.err then some c else some b

/-- The best is an exact match, which ends the search (42_pll_solver.md R124). -/
def isExact (best : Option Best) : Bool :=
  match best with
  | none => false
  | some b => b.err == 0

/-- The inner loop: `n` values of `d`, ascending from `d` (42_pll_solver.md R124). -/
def searchD (fin fout m : Nat) : Nat → Nat → Option Best → Option Best
  | 0, _, best => best
  | n + 1, d, best =>
    let best' := keepBetter best (candidate fin fout m d)
    if isExact best' then best' else searchD fin fout m n (d + 1) best'

/-- The outer loop: `n` values of `m`, ascending from `m` (42_pll_solver.md R124). -/
def searchM (fin fout dMn dMx : Nat) : Nat → Nat → Option Best → Option Best
  | 0, _, best => best
  | n + 1, m, best =>
    let dl := dLowOf fin m dMn
    let best' := searchD fin fout m (dHighOf fin m dMx + 1 - dl) dl best
    if isExact best' then best' else searchM fin fout dMn dMx n (m + 1) best'

/-- `Search(fin, fout)` (42_pll_solver.md R122 to R124): `none` is NoFeasibleSolution. -/
def search (c : Config) (fin fout : Nat) : Option Best :=
  if dMinOf fin > dMaxOf fin then none
  else
    let mn := mMinOf c.mBoundMode fin (dMinOf fin)
    searchM fin fout (dMinOf fin) (dMaxOf fin) (mMaxOf fin (dMaxOf fin) + 1 - mn) mn none

/-- `Achieved(parentRateHz, d, m, dout)` (42_pll_solver.md R126). -/
def achieved (parentRateHz d m dout : Nat) : Nat := parentRateHz / d * m / dout

/-- `Achieved` of a stored triple. -/
def achievedBy (parentRateHz : Nat) (b : Best) : Nat := achieved parentRateHz b.d.toNat b.m.toNat b.dout.toNat

/-- `filterFor(i)` (10_state.md R36): the band that holds the index, else the default. -/
def filterFor (c : Config) (i : Nat) : Word :=
  match c.filterTable.find? fun b => decide (b.first ≤ i) && decide (i ≤ b.last) with
  | some b => b.constant
  | none => filterDefault

/-- `lockFor(i)` (10_state.md R37): the table below `LOCK_LEN`, else the default. -/
def lockFor (c : Config) (i : Nat) : Word :=
  if i < lockLen then c.lockTable.getD i lockDefault else lockDefault

/-- The search's working values, as the search leaves them (10_state.md R35 (d); log 9). -/
def noteSearch (b : Best) : Cmd Unit := fun s => .ok () { s with search := some b }

/-- `CheckAndScale`, then `Search`, as the three rate commands begin (42_pll_solver.md R120, R124). -/
def solve (c : Config) (parentRateHz targetRateHz : Nat) : Cmd Best :=
  (orRaise .invalidRequest (checkAndScale parentRateHz targetRateHz)).bind fun khz =>
  (orRaise .noFeasibleSolution (search c khz.1 khz.2)).bind fun b =>
  (noteSearch b).andThen (Cmd.ret b)

/-- The results of a solved request: RES0 to RES3 (42_pll_solver.md R127, 43_mmcm_encoder.md R157). -/
def solveResults (parentRateHz : Nat) (b : Best) : List (Fin 8 × Word) :=
  [(0, b.d.setWidth 32), (1, b.m.setWidth 32), (2, b.dout.setWidth 32),
   (3, BitVec.ofNat 32 (achievedBy parentRateHz b))]

/-- PLL_SOLVE's sequence (42_pll_solver.md R127). -/
def pllSolveBody (c : Config) : Cmd Unit :=
  (argU32 0).bind fun parent =>
  (argU32 1).bind fun target =>
  (solve c parent target).bind fun b =>
  stageResults (solveResults parent b)

/-- PLL_SOLVE (42_pll_solver.md R127). -/
def execPllSolve (s : State) : Host.Outcome State Fault Refusal := .next (runCommand (pllSolveBody psme) s)

/-- PLL_ROUND_RATE's sequence (42_pll_solver.md R128). -/
def pllRoundRateBody (c : Config) : Cmd Unit :=
  (argU32 0).bind fun parent =>
  (argU32 1).bind fun requested =>
  (solve c parent requested).bind fun b =>
  stageRes 0 (BitVec.ofNat 32 (achievedBy parent b))

/-- PLL_ROUND_RATE (42_pll_solver.md R128). -/
def execPllRoundRate (s : State) : Host.Outcome State Fault Refusal := .next (runCommand (pllRoundRateBody psme) s)

/-- PLL_FILTER's sequence (42_pll_solver.md R129). -/
def pllFilterBody (c : Config) : Cmd Unit :=
  (argU32 0).bind fun i => stageRes 0 (filterFor c i)

/-- PLL_FILTER (42_pll_solver.md R129). -/
def execPllFilter (s : State) : Host.Outcome State Fault Refusal := .next (runCommand (pllFilterBody psme) s)

/-- PLL_LOCK's sequence (42_pll_solver.md R130). -/
def pllLockBody (c : Config) : Cmd Unit :=
  (argU32 0).bind fun i => stageRes 0 (lockFor c i)

/-- PLL_LOCK (42_pll_solver.md R130). -/
def execPllLock (s : State) : Host.Outcome State Fault Refusal := .next (runCommand (pllLockBody psme) s)

end Sys2Proof.Machine
end

