-- ==== Sys2Proof/Machine/Mmcm.lean ====
section
/-! DEFINITION. The MMCM field encoder and the clock-generator control (43_mmcm_encoder.md): PLL_FIELDS, PLL_PROGRAM,
PLL_SET_RATE, CLK_ENABLE, CLK_DISABLE, CLK_SET_PARENT, CLK_GET_PARENT and PLL_RECALC_RATE. -/

namespace Sys2Proof.Machine

/-- `fieldsFor(divider)` (43_mmcm_encoder.md R150; 90_conflicts.md C1). -/
def fieldsFor (c : Config) (divider : Nat) : DividerFields :=
  let high := c.splitHigh divider
  { low := divider - high, high := high, edge := divider % 2, noCount := if divider = 1 then 1 else 0 }

/-- What the rows of `MMCM_PACK` are computed from, for a triple (43_mmcm_encoder.md R153). -/
def packInput (c : Config) (d m dout : Nat) : PackInput :=
  { fd := fieldsFor c d, fm := fieldsFor c m, fdout := fieldsFor c dout,
    lock := lockFor c (m - 1), filter := filterFor c (m - 1) }

/-- The sub-writes of some rows of `MMCM_PACK`, in order; each value is truncated to 16 bits (43_mmcm_encoder.md
R153, R154). -/
def writeRows (x : PackInput) : List PackRow → Cmd Unit
  | [] => Cmd.ret ()
  | row :: rest => (drpWrite row.index (BitVec.ofNat 16 (row.value x)) row.mask).andThen (writeRows x rest)

/-- `ProgramSequence(d, m, dout)` (43_mmcm_encoder.md R154). It does not touch RESET_CTRL (70_reset_and_hazards.md
R282). -/
def programSequence (c : Config) (d m dout : Nat) : Cmd Unit := writeRows (packInput c d m dout) c.mmcmPack

/-- The results of PLL_FIELDS: RES0 to RES3 (43_mmcm_encoder.md R155). -/
def fieldsResults (f : DividerFields) : List (Fin 8 × Word) :=
  [(0, BitVec.ofNat 32 f.low), (1, BitVec.ofNat 32 f.high), (2, BitVec.ofNat 32 f.edge), (3, BitVec.ofNat 32 f.noCount)]

/-- PLL_FIELDS's sequence (43_mmcm_encoder.md R155). -/
def pllFieldsBody (c : Config) : Cmd Unit :=
  (argU32 0).bind fun divider =>
  (require (decide (divider ≠ 0)) .invalidRequest).andThen
  (stageResults (fieldsResults (fieldsFor c divider)))

/-- PLL_FIELDS (43_mmcm_encoder.md R155). -/
def execPllFields (s : State) : Host.Outcome State Fault Refusal := .next (runCommand (pllFieldsBody psme) s)

/-- PLL_PROGRAM's sequence (43_mmcm_encoder.md R156): the range check comes before the zero check (60_exceptions.md
R247). -/
def pllProgramBody (c : Config) : Cmd Unit :=
  (argU32 0).bind fun d =>
  (argU32 1).bind fun m =>
  (argU32 2).bind fun dout =>
  (require (decide (d ≤ dMax ∧ m ≤ mMax ∧ dout ≤ doutMax)) .invalidRequest).andThen
  ((require (decide (d ≠ 0 ∧ m ≠ 0 ∧ dout ≠ 0)) .noFeasibleSolution).andThen
  (programSequence c d m dout))

/-- PLL_PROGRAM (43_mmcm_encoder.md R156). -/
def execPllProgram (s : State) : Host.Outcome State Fault Refusal := .next (runCommand (pllProgramBody psme) s)

/-- PLL_SET_RATE's sequence (43_mmcm_encoder.md R157). -/
def pllSetRateBody (c : Config) : Cmd Unit :=
  (argU32 0).bind fun parent =>
  (argU32 1).bind fun target =>
  (solve c parent target).bind fun b =>
  (programSequence c b.d.toNat b.m.toNat b.dout.toNat).andThen
  (stageResults (solveResults parent b))

/-- PLL_SET_RATE (43_mmcm_encoder.md R157). -/
def execPllSetRate (s : State) : Host.Outcome State Fault Refusal := .next (runCommand (pllSetRateBody psme) s)

/-- CLK_ENABLE (43_mmcm_encoder.md R158): one whole-word write, reset-enable and PLL-core-enable set. -/
def execClkEnable (s : State) : Host.Outcome State Fault Refusal :=
  .next (runCommand (memWrite .clk resetCtrl 0x00000003#32) s)

/-- CLK_DISABLE (43_mmcm_encoder.md R159): one whole-word write, reset-enable stays set. -/
def execClkDisable (s : State) : Host.Outcome State Fault Refusal :=
  .next (runCommand (memWrite .clk resetCtrl 0x00000001#32) s)

/-- CLK_SET_PARENT's sequence (43_mmcm_encoder.md R160). -/
def clkSetParentBody : Cmd Unit :=
  (argWord 0).bind fun index =>
  (require (decide (index.toNat < numParents)) .invalidRequest).andThen
  (memWrite .clk clkSel index)

/-- CLK_SET_PARENT (43_mmcm_encoder.md R160). -/
def execClkSetParent (s : State) : Host.Outcome State Fault Refusal := .next (runCommand clkSetParentBody s)

/-- CLK_GET_PARENT (43_mmcm_encoder.md R161): the whole word read, not masked and not checked. -/
def execClkGetParent (s : State) : Host.Outcome State Fault Refusal :=
  .next (runCommand ((memRead .clk clkSel).bind fun v => stageRes 0 v) s)

/-- The rate that three read-back dividers give: 0 when one is 0, saturated at 0xFFFFFFFF (43_mmcm_encoder.md R163). -/
def recalculated (parentRateHz d m dout : Nat) : Nat :=
  if d = 0 ∨ m = 0 ∨ dout = 0 then 0 else min (achieved parentRateHz d m dout) 0xFFFFFFFF

/-- PLL_RECALC_RATE's sequence (43_mmcm_encoder.md R163): output, main, feedback divider, in that order. -/
def pllRecalcRateBody (c : Config) : Cmd Unit :=
  (argU32 0).bind fun parent =>
  (drpRead 0x08#12).bind fun out =>
  (drpRead 0x16#12).bind fun main =>
  (drpRead 0x14#12).bind fun feedback =>
  stageRes 0 (BitVec.ofNat 32
    (recalculated parent (c.decodeDivider main) (c.decodeDivider feedback) (c.decodeDivider out)))

/-- PLL_RECALC_RATE (43_mmcm_encoder.md R163). -/
def execPllRecalcRate (s : State) : Host.Outcome State Fault Refusal := .next (runCommand (pllRecalcRateBody psme) s)

end Sys2Proof.Machine
end

