-- ==== Sys2Proof/Machine/Window.lean ====
section
/-! DEFINITION. The sensor window solver (44_sensor_window.md) and SNS_WINDOW_SOLVE. -/

namespace Sys2Proof.Machine

/-- What `WindowSolve` returns, as exact integers (44_sensor_window.md R187). -/
structure Window where
  left : Nat
  top : Nat
  width : Nat
  height : Nat
  xskip : Nat
  yskip : Nat
  xbin : Nat
  ybin : Nat
  deriving DecidableEq, Repr

/-- `AlignLeft(left, xbin)` (44_sensor_window.md R185). Every `xbin` other than 1 and 2 is 3 (R184;
DEDUCED, log 13). -/
def alignLeft (c : Config) (left : Half) (xbin : Nat) : Nat :=
  if xbin = 1 then (left &&& ~~~1#16).toNat
  else if xbin = 2 then (left &&& ~~~3#16).toNat
  else max (floor6 left.toNat) (ceil6 c.columnSkip)

/-- The vertical origin, even whatever `ybin` is (44_sensor_window.md R186; 90_conflicts.md C3). -/
def alignTop (top : Half) : Nat := (top &&& ~~~1#16).toNat

/-- `WindowSolve(reqW, reqH, R)` (44_sensor_window.md R187). The origin does not move with the size. -/
def windowSolve (c : Config) (reqW reqH : Nat) (r : Rect) : Window :=
  let w := c.alignSize reqW c.snsMinWidth c.snsMaxWidth c.snsWAlign
  let h := c.alignSize reqH c.snsMinHeight c.snsMaxHeight c.snsHAlign
  let x := c.skipFn r.width.toNat w c.snsMaxWidth
  let y := c.skipFn r.height.toNat h c.snsMaxHeight
  { left := alignLeft c r.left (binOf x.1), top := alignTop r.top, width := x.2, height := y.2,
    xskip := x.1, yskip := y.1, xbin := binOf x.1, ybin := binOf y.1 }

/-- The rect of a solved window, as `S.RECT` stores it (10_state.md R28). -/
def Window.rect (w : Window) : Rect :=
  { left := BitVec.ofNat 16 w.left, top := BitVec.ofNat 16 w.top, width := BitVec.ofNat 16 w.width,
    height := BitVec.ofNat 16 w.height }

/-- The results of a solved window: RES0 to RES7 (44_sensor_window.md R188). -/
def windowResults (w : Window) : List (Fin 8 × Word) :=
  [(0, BitVec.ofNat 32 w.left), (1, BitVec.ofNat 32 w.top), (2, BitVec.ofNat 32 w.width),
   (3, BitVec.ofNat 32 w.height), (4, BitVec.ofNat 32 w.xskip), (5, BitVec.ofNat 32 w.yskip),
   (6, BitVec.ofNat 32 w.xbin), (7, BitVec.ofNat 32 w.ybin)]

/-- SNS_WINDOW_SOLVE's sequence (44_sensor_window.md R188). -/
def snsWindowSolveBody (c : Config) : Cmd Unit :=
  (argU32 0).bind fun reqW =>
  (argU32 1).bind fun reqH =>
  current.bind fun s =>
  stageResults (windowResults (windowSolve c reqW reqH s.rect))

/-- SNS_WINDOW_SOLVE (44_sensor_window.md R188). -/
def execSnsWindowSolve (s : State) : Host.Outcome State Fault Refusal := .next (runCommand (snsWindowSolveBody psme) s)

end Sys2Proof.Machine
end

