-- ==== Sys2Proof/Machine/Sensor.lean ====
section
/-! DEFINITION. The sensor control mapper and the format negotiation (45_sensor_control.md): SNS_GAIN_CODE,
SNS_SHUTTER_CODE, SNS_SET_CTRL, SNS_GET_FORMAT and SNS_SET_FORMAT. -/

namespace Sys2Proof.Machine

/-! ### Checks and mappings -/

/-- The gain checks of 45_sensor_control.md R200: both values in range, and the divisor of the segment nonzero. -/
def gainOk (value minimum maximum defaultValue : Int) : Bool :=
  decide (minimum ≤ defaultValue ∧ defaultValue ≤ maximum ∧ minimum ≤ value ∧ value ≤ maximum) &&
  (if value ≤ defaultValue then decide (defaultValue - minimum ≠ 0) else decide (maximum - defaultValue - 1 ≠ 0))

/-- The manual-exposure checks of 45_sensor_control.md R200. -/
def manualOk (value minimum maximum : Int) : Bool :=
  decide (minimum ≤ value ∧ value ≤ maximum ∧ maximum - minimum ≠ 0)

/-- The register code of a `gain` of the upper segment (45_sensor_control.md R202). -/
def highGainCode (gain : Nat) : Nat :=
  if gain ≤ 32 then gain
  else if gain ≤ 64 then roundDiv ((gain - 32) * 16) 32 + 80
  else (((gain - 64 + 7) * 32) &&& 0xFF00) ||| 0x60

/-- `GainCode` (45_sensor_control.md R202). The checks of R200 make every difference here nonnegative. -/
def gainCode (value minimum maximum defaultValue : Int) : Nat :=
  if value ≤ defaultValue then
    roundDiv ((value - minimum).toNat * 8) (defaultValue - minimum).toNat
  else
    highGainCode (roundDiv ((value - defaultValue - 1).toNat * 1015) (maximum - defaultValue - 1).toNat + 9)

/-- The manual shutter (45_sensor_control.md R204, mode 0). -/
def manualShutter (value minimum maximum : Int) : Nat :=
  roundDiv ((value - minimum).toNat * 1048) (maximum - minimum).toNat + 1

/-- `AutoShutter(R)` of a window height (45_sensor_control.md R212). -/
def autoShutter (c : Config) (s : State) (height : Nat) : Nat := height + s.ySkipTop.toNat + c.vBlank

/-- `ShutterCode(mode, value, minimum, maximum, S.RECT)` (45_sensor_control.md R204), with the check of R200 that its
callers make in manual mode (R207, R210); automatic mode ignores the three values. -/
def shutterCode (c : Config) (automatic : Bool) (value minimum maximum : Int) : Cmd Nat :=
  if automatic then current.bind fun s => Cmd.ret (autoShutter c s s.rect.height.toNat)
  else (require (manualOk value minimum maximum) .invalidRequest).andThen
    (Cmd.ret (manualShutter value minimum maximum))

/-! ### Sensor writes -/

/-- The check of 45_sensor_control.md R201, made before the first channel access. -/
def checkHalves (ws : List (Half × Nat)) : Cmd Unit :=
  require (ws.all fun w => fitsHalf w.2) .invalidRequest

/-- `MemWrite(SNS, a, 2, v)` for each pair, in order. -/
def snsWrites : List (Half × Nat) → Cmd Unit
  | [] => Cmd.ret ()
  | (a, v) :: rest => (snsWrite a (BitVec.ofNat 16 v)).andThen (snsWrites rest)

/-- The writes of `WriteShutter(t)`: two 16-bit halves, the upper half first (45_sensor_control.md R205). -/
def shutterWrites (c : Config) (t : Nat) : List (Half × Nat) :=
  let upper := (c.snsReg.shutterUpper, ((BitVec.ofNat 32 t).extractLsb' 16 16).toNat)
  let lower := (c.snsReg.shutterLower, ((BitVec.ofNat 32 t).extractLsb' 0 16).toNat)
  if c.shutterUpperFirst then [upper, lower] else [lower, upper]

/-- `OutputDisable()` (45_sensor_control.md R213). -/
def outputDisable (c : Config) : Cmd Unit := snsUpdate c.snsReg.outputControl c.outputHoldMask c.outputHoldIsSet

/-- `OutputEnable()` (45_sensor_control.md R213). -/
def outputEnable (c : Config) : Cmd Unit := snsUpdate c.snsReg.outputControl c.outputHoldMask (!c.outputHoldIsSet)

/-! ### SNS_GAIN_CODE and SNS_SHUTTER_CODE -/

/-- SNS_GAIN_CODE's sequence (45_sensor_control.md R206). -/
def snsGainCodeBody : Cmd Unit :=
  (argS32 0).bind fun value =>
  (argS32 1).bind fun minimum =>
  (argS32 2).bind fun maximum =>
  (argS32 3).bind fun defaultValue =>
  (require (gainOk value minimum maximum defaultValue) .invalidRequest).andThen
  (stageRes 0 (BitVec.ofNat 32 (gainCode value minimum maximum defaultValue)))

/-- SNS_GAIN_CODE (45_sensor_control.md R206). -/
def execSnsGainCode (s : State) : Host.Outcome State Fault Refusal := .next (runCommand snsGainCodeBody s)

/-- SNS_SHUTTER_CODE's sequence (45_sensor_control.md R207). It records no line time (90_conflicts.md C5). -/
def snsShutterCodeBody (c : Config) : Cmd Unit :=
  (argBool 0).bind fun automatic =>
  (argS32 1).bind fun value =>
  (argS32 2).bind fun minimum =>
  (argS32 3).bind fun maximum =>
  (shutterCode c automatic value minimum maximum).bind fun t =>
  stageRes 0 (BitVec.ofNat 32 t)

/-- SNS_SHUTTER_CODE (45_sensor_control.md R207). -/
def execSnsShutterCode (s : State) : Host.Outcome State Fault Refusal := .next (runCommand (snsShutterCodeBody psme) s)

/-! ### SNS_SET_CTRL -/

/-- The one write of a gain code (45_sensor_control.md R209). -/
def gainWrites (c : Config) (code : Nat) : List (Half × Nat) := [(c.snsReg.globalGain, code)]

/-- Control 1, GAIN (45_sensor_control.md R209). -/
def setGain (c : Config) : Cmd Unit :=
  (argS32 1).bind fun value =>
  (argS32 2).bind fun minimum =>
  (argS32 3).bind fun maximum =>
  (argS32 4).bind fun defaultValue =>
  (require (gainOk value minimum maximum defaultValue) .invalidRequest).andThen
  ((checkHalves (gainWrites c (gainCode value minimum maximum defaultValue))).andThen
  ((snsWrites (gainWrites c (gainCode value minimum maximum defaultValue))).andThen
  (stageRes 0 (BitVec.ofNat 32 (gainCode value minimum maximum defaultValue)))))

/-- Control 2, EXPOSURE (45_sensor_control.md R210). The line time is recorded in automatic mode only. -/
def setExposure (c : Config) : Cmd Unit :=
  (argBool 1).bind fun automatic =>
  (argS32 2).bind fun value =>
  (argS32 3).bind fun minimum =>
  (argS32 4).bind fun maximum =>
  (shutterCode c automatic value minimum maximum).bind fun t =>
  (checkHalves (shutterWrites c t)).andThen
  ((snsWrites (shutterWrites c t)).andThen
  ((stageState (.aeMode automatic)).andThen
  ((if automatic then stageState (.totalLineTime (BitVec.ofNat 32 t)) else Cmd.ret ()).andThen
  (stageRes 0 (BitVec.ofNat 32 t)))))

/-- Controls 3, HFLIP, and 4, VFLIP (45_sensor_control.md R211). -/
def setFlip (c : Config) (mask : Half) : Cmd Unit :=
  (argBool 1).bind fun on => snsUpdate c.snsReg.readMode2 mask on

/-- SNS_SET_CTRL's sequence (45_sensor_control.md R208; the identifiers of 30_encoding.md R74). -/
def snsSetCtrlBody (c : Config) : Cmd Unit :=
  (argU32 0).bind fun control =>
  match control with
  | 1 => setGain c
  | 2 => setExposure c
  | 3 => setFlip c c.hFlipMask
  | 4 => setFlip c c.vFlipMask
  | _ => raise .invalidRequest

/-- SNS_SET_CTRL (45_sensor_control.md R208). -/
def execSnsSetCtrl (s : State) : Host.Outcome State Fault Refusal := .next (runCommand (snsSetCtrlBody psme) s)

/-! ### SNS_GET_FORMAT and SNS_SET_FORMAT -/

/-- The results of the format commands: the effective size and the three fixed tags (45_sensor_control.md R214,
R215). -/
def formatResults (c : Config) (width height xskip yskip : Nat) : List (Fin 8 × Word) :=
  [(0, BitVec.ofNat 32 (width / xskip)), (1, BitVec.ofNat 32 (height / yskip)), (2, c.fmtCode), (3, c.fmtColorspace),
   (4, c.fmtField)]

/-- SNS_GET_FORMAT's sequence (45_sensor_control.md R214). -/
def snsGetFormatBody (c : Config) : Cmd Unit :=
  (argU32 0).bind fun pad =>
  (require (decide (pad = 0)) .invalidRequest).andThen
  (current.bind fun s =>
   stageResults (formatResults c s.rect.width.toNat s.rect.height.toNat s.xskip.toNat s.yskip.toNat))

/-- SNS_GET_FORMAT (45_sensor_control.md R214). -/
def execSnsGetFormat (s : State) : Host.Outcome State Fault Refusal := .next (runCommand (snsGetFormatBody psme) s)

/-- The address-mode writes, gated on the skip changing from the record (45_sensor_control.md R216,
70_reset_and_hazards.md R285); the packing is 10_state.md R40. -/
def addrModeWrites (c : Config) (s : State) (w : Window) : List (Half × Nat) :=
  if w.xskip ≠ s.xskip.toNat ∨ w.yskip ≠ s.yskip.toNat then
    [(c.snsReg.colAddrMode, (w.xbin - 1) <<< 4 ||| (w.xskip - 1)),
     (c.snsReg.rowAddrMode, (w.ybin - 1) <<< 4 ||| (w.yskip - 1))]
  else []

/-- The writes between `OutputDisable` and `OutputEnable`, in order (45_sensor_control.md R216). -/
def formatWrites (c : Config) (s : State) (w : Window) : List (Half × Nat) :=
  [(c.snsReg.hBlank, c.hBlank), (c.snsReg.vBlank, c.vBlank)] ++ addrModeWrites c s w ++
  [(c.snsReg.colStart, w.left), (c.snsReg.rowStart, w.top), (c.snsReg.winWidth, c.winWidthReg w.width),
   (c.snsReg.winHeight, c.winHeightReg w.height s.ySkipTop.toNat)] ++
  (if s.aeMode then shutterWrites c (autoShutter c s w.height) else [])

/-- The persistent writes of a format commit (45_sensor_control.md R216). -/
def stageFormat (c : Config) (s : State) (w : Window) : Cmd Unit :=
  (if s.aeMode then stageState (.totalLineTime (BitVec.ofNat 32 (autoShutter c s w.height)))
    else Cmd.ret ()).andThen
  ((stageState (.rect w.rect)).andThen
  ((stageState (.xskip (BitVec.ofNat 4 w.xskip))).andThen
  (stageState (.yskip (BitVec.ofNat 4 w.yskip)))))

/-- The commit of a solved window (45_sensor_control.md R216): the check of R201, the hold, the writes, the release, the
record and the results. -/
def commitFormat (c : Config) (s : State) (w : Window) : Cmd Unit :=
  (checkHalves (formatWrites c s w)).andThen
  ((outputDisable c).andThen
  ((snsWrites (formatWrites c s w)).andThen
  ((outputEnable c).andThen
  ((stageFormat c s w).andThen
  (stageResults (formatResults c w.width w.height w.xskip w.yskip))))))

/-- SNS_SET_FORMAT's sequence (45_sensor_control.md R216). -/
def snsSetFormatBody (c : Config) : Cmd Unit :=
  (argU32 0).bind fun pad =>
  (argU32 1).bind fun reqW =>
  (argU32 2).bind fun reqH =>
  (require (decide (pad = 0)) .invalidRequest).andThen
  (current.bind fun s => commitFormat c s (windowSolve c reqW reqH s.rect))

/-- SNS_SET_FORMAT (45_sensor_control.md R216). -/
def execSnsSetFormat (s : State) : Host.Outcome State Fault Refusal := .next (runCommand (snsSetFormatBody psme) s)

end Sys2Proof.Machine
end

