-- ==== Sys2Proof/Machine/Dispatch.lean ====
section
/-! DEFINITION. One arm per command (30_encoding.md R73). -/

namespace Sys2Proof.Machine

def exec (i : Instr) (s : State) : Host.Outcome State Fault Refusal :=
  match i with
  | .drpRead => Sys2Proof.Machine.execDrpRead s
  | .drpWrite => Sys2Proof.Machine.execDrpWrite s
  | .pllSolve => Sys2Proof.Machine.execPllSolve s
  | .pllRoundRate => Sys2Proof.Machine.execPllRoundRate s
  | .pllFilter => Sys2Proof.Machine.execPllFilter s
  | .pllLock => Sys2Proof.Machine.execPllLock s
  | .pllFields => Sys2Proof.Machine.execPllFields s
  | .pllProgram => Sys2Proof.Machine.execPllProgram s
  | .pllSetRate => Sys2Proof.Machine.execPllSetRate s
  | .clkEnable => Sys2Proof.Machine.execClkEnable s
  | .clkDisable => Sys2Proof.Machine.execClkDisable s
  | .clkSetParent => Sys2Proof.Machine.execClkSetParent s
  | .clkGetParent => Sys2Proof.Machine.execClkGetParent s
  | .pllRecalcRate => Sys2Proof.Machine.execPllRecalcRate s
  | .snsWindowSolve => Sys2Proof.Machine.execSnsWindowSolve s
  | .snsGainCode => Sys2Proof.Machine.execSnsGainCode s
  | .snsShutterCode => Sys2Proof.Machine.execSnsShutterCode s
  | .snsSetCtrl => Sys2Proof.Machine.execSnsSetCtrl s
  | .snsGetFormat => Sys2Proof.Machine.execSnsGetFormat s
  | .snsSetFormat => Sys2Proof.Machine.execSnsSetFormat s

end Sys2Proof.Machine
end

