-- ==== Sys2Proof/Machine/Step.lean ====
section
/-! DEFINITION. One step of the PSME (10_state.md R23; log 1): in IDLE the next input, in RUN the whole of the accepted
command. -/

namespace Sys2Proof.Machine

/-- One step. -/
def step (s : State) : Host.Outcome State Fault Refusal :=
  match s.phase with
  | .idle => idleStep s
  | .run =>
    match decode s.cmd with
    | .ok i => exec i s
    | .error _ => execIllegal s

/-- `s` with the command word accepted: the PSME fetches no instructions, the word is the one a host wrote to CMD, and
its acceptance (10_state.md R26) is what makes the next step run it (log 2). -/
def State.withFetchWord (s : State) (nbits w : Nat) : State := accept (BitVec.ofNat 32 (w % 2 ^ nbits)) s

end Sys2Proof.Machine
end

