-- ==== Sys2Proof/Safety.lean ====
section
/-! DEFINITION. The terms the claims use: the state a command's sequence starts from, the state a completion leaves,
the answers a device gives to a DRP procedure and the transactions they make, feasibility of a divider pair, and the
invariant every step keeps. Nothing here is called by the machine. -/

namespace Sys2Proof.Machine

/-! ### Before and after a command -/

/-- The state in which a command's sequence starts, once the inputs that land first have landed (log 2). `none`: a
reset is among them and abandons the command. -/
def landedState (s : State) : Option State :=
  match landBusy s.inputs (beginRun s) with
  | .go u => some u
  | .reset _ => none

/-- What a successful completion leaves of `u`, with these results (60_exceptions.md R246): DONE, ERR = 0, ERRINFO = 0,
IDLE and no hidden working state. -/
def afterOk (u : State) (res : Vector Word 8) : State :=
  { u with res := res, done := true, err := .ok, errInfo := 0#32, phase := .idle, busyCount := 0, search := none,
           stagedRes := [], stagedState := [] }

/-- What a completion with an error leaves of `u` (60_exceptions.md R246): no result and no persistent state changes. -/
def afterErr (u : State) (code : ErrCode) (info : Word) : State :=
  { u with done := true, err := code, errInfo := info, phase := .idle, busyCount := 0, search := none,
           stagedRes := [], stagedState := [] }

/-- `u` after these transactions, with these inputs left. -/
def ran (u : State) (tr : List Transaction) (rest : List Input) : State :=
  { u with trace := u.trace ++ tr, inputs := rest }

/-- The PSME's reset state, with the model's own records of `s` and these inputs left (70_reset_and_hazards.md R270). -/
def freshAfter (s : State) (rest : List Input) : State :=
  { State.reset with inputs := rest, trace := s.trace, hostReads := s.hostReads, draws := s.draws }

/-- The persistent sensor configuration is the same (10_state.md R28 to R33). -/
def SamePersistent (s t : State) : Prop :=
  t.rect = s.rect ∧ t.xskip = s.xskip ∧ t.yskip = s.yskip ∧ t.totalLineTime = s.totalLineTime ∧
  t.ySkipTop = s.ySkipTop ∧ t.aeMode = s.aeMode

/-- No hidden working state is left (10_state.md R35). -/
def HiddenEmpty (s : State) : Prop :=
  s.busyCount = 0 ∧ s.search = none ∧ s.stagedRes = [] ∧ s.stagedState = []

/-! ### What a device answers to the DRP procedures -/

/-- The answers to one busy wait: busy ones, then one that is not (41_drp.md R100). -/
structure Poll where
  busy : List Word
  last : Word
  deriving DecidableEq, Repr

/-- The busy wait ends within its budget (41_drp.md R100). -/
def Poll.Ok (p : Poll) : Prop :=
  p.busy.length < 10000 ∧ (∀ b ∈ p.busy, b.getLsbD 16 = true) ∧ p.last.getLsbD 16 = false

/-- The answers, as inputs. -/
def Poll.inputs (p : Poll) : List Input := (p.busy ++ [p.last]).map fun v => .answer (.value v)

/-- The reads of DRP_STATUS they answer. -/
def Poll.trace (p : Poll) : List Transaction :=
  (p.busy ++ [p.last]).map fun v => ⟨.clk, 0x74#32, .read, .value v⟩

/-- The answers to one `DrpRead` (41_drp.md R104). -/
structure SubRead where
  before : Poll
  ack : Word
  after : Poll
  deriving DecidableEq, Repr

/-- Both busy waits end within their budget. -/
def SubRead.Ok (r : SubRead) : Prop := r.before.Ok ∧ r.after.Ok

/-- The answers, as inputs. -/
def SubRead.inputs (r : SubRead) : List Input :=
  r.before.inputs ++ [.answer (.value r.ack)] ++ r.after.inputs

/-- The transactions of `DrpRead(idx)` they answer: SEL and READ set in the control word (41_drp.md R103, R104). -/
def SubRead.trace (r : SubRead) (idx : SubIndex) : List Transaction :=
  r.before.trace ++ [⟨.clk, 0x70#32, .write (0x30000000#32 ||| (idx.setWidth 32 <<< 16)), .done⟩] ++ r.after.trace

/-- The value `DrpRead` returns: the low half of the first answer that is not busy (41_drp.md R104). -/
def SubRead.value (r : SubRead) : Half := r.after.last.extractLsb' 0 16

/-- The answers to one masked `DrpWrite` (41_drp.md R105, mask not 0xFFFF). -/
structure SubWrite where
  before : Poll
  old : SubRead
  ack : Word
  deriving DecidableEq, Repr

/-- All three busy waits end within their budget. -/
def SubWrite.Ok (w : SubWrite) : Prop := w.before.Ok ∧ w.old.Ok

/-- The answers, as inputs. -/
def SubWrite.inputs (w : SubWrite) : List Input :=
  w.before.inputs ++ w.old.inputs ++ [.answer (.value w.ack)]

/-- The control word of a DRP write: SEL set, READ clear (41_drp.md R103). -/
def writeWord (idx : SubIndex) (data : Half) : Word := 0x20000000#32 ||| (idx.setWidth 32 <<< 16) ||| data.setWidth 32

/-- The transactions of the masked `DrpWrite(idx, value, mask)` they answer (41_drp.md R105). -/
def SubWrite.trace (w : SubWrite) (idx : SubIndex) (value mask : Half) : List Transaction :=
  w.before.trace ++ w.old.trace idx ++
  [⟨.clk, 0x70#32, .write (writeWord idx ((w.old.value &&& ~~~mask) ||| (value &&& mask))), .done⟩]

/-- The ten sub-writes of a triple: index, value, mask (43_mmcm_encoder.md R153), written out. -/
def subWrites (d m dout : Nat) : List (SubIndex × Half × Half) :=
  let half := BitVec.ofNat 16
  let one := fun x : Nat => if x = 1 then 1 else 0
  let lock := lockFor psme (m - 1)
  let filter := filterFor psme (m - 1)
  [(0x08#12, half (((dout / 2) <<< 6) ||| (dout - dout / 2)), 0xEFFF#16),
   (0x09#12, half (((dout % 2) <<< 7) ||| (one dout <<< 6)), 0x03FF#16),
   (0x14#12, half (((m / 2) <<< 6) ||| (m - m / 2)), 0xEFFF#16),
   (0x15#12, half (((m % 2) <<< 7) ||| (one m <<< 6)), 0x03FF#16),
   (0x16#12, half (((d % 2) <<< 13) ||| (one d <<< 12) ||| ((d / 2) <<< 6) ||| (d - d / 2)), 0x3FFF#16),
   (0x18#12, (lock.extractLsb' 0 10).setWidth 16, 0x03FF#16),
   (0x19#12, half (((lock.extractLsb' 16 5).toNat <<< 10) ||| 0x0001), 0x7FFF#16),
   (0x1a#12, half (((lock.extractLsb' 24 5).toNat <<< 10) ||| 0x03E9), 0x7FFF#16),
   (0x4e#12, filter.extractLsb' 16 16, 0x9900#16),
   (0x4f#12, filter.extractLsb' 0 16, 0x9900#16)]

/-- The transactions of the ten sub-writes, for the answers `ws` to them (43_mmcm_encoder.md R154). -/
def programTrace (ws : List SubWrite) (d m dout : Nat) : List Transaction :=
  (ws.zip (subWrites d m dout)).flatMap fun x => x.1.trace x.2.1 x.2.2.1 x.2.2.2

/-- The answers to the ten sub-writes, as inputs. -/
def programInputsOf (ws : List SubWrite) : List Input := ws.flatMap SubWrite.inputs

/-! ### The PLL search -/

/-- A pair is feasible for `fin` (42_pll_solver.md R121). -/
def Feasible (fin d m : Nat) : Prop :=
  1 ≤ d ∧ d ≤ 80 ∧ 1 ≤ m ∧ m ≤ 64 ∧ 10000 * d ≤ fin ∧ fin ≤ 300000 * d ∧
  600000 * d ≤ fin * m ∧ fin * m ≤ 1200000 * d

/-- The output divider of a pair: the nearest quotient, halves up, clamped to 1 to 128 (42_pll_solver.md R124). -/
def nearestDout (fin fout d m : Nat) : Nat := min (max ((fin * m / d + fout / 2) / fout) 1) 128

/-- The error in kHz of a pair with its output divider (42_pll_solver.md R124). -/
def pairError (fin fout d m : Nat) : Nat :=
  ((fin * m / d / nearestDout fin fout d m : Nat) - (fout : Int)).natAbs

/-! ### Sensor transactions -/

/-- A read of a sensor register that answered this value. -/
def snsReadOf (addr : Word) (v : Half) : Transaction := ⟨.sns, addr, .read, .value (v.setWidth 32)⟩

/-- A write of a sensor register that succeeded. -/
def snsWriteOf (addr : Word) (v : Half) : Transaction := ⟨.sns, addr, .write (v.setWidth 32), .done⟩

/-! ### The host window -/

/-- The readable registers of the window and what they read (10_state.md R21); every other word-aligned offset below
0x100 is reserved. -/
def windowTable (s : State) : List (Nat × Word) :=
  [(0x00, s.cmd), (0x04, statusWord s), (0x08, s.errInfo),
   (0x10, s.arg.get 0), (0x14, s.arg.get 1), (0x18, s.arg.get 2), (0x1C, s.arg.get 3),
   (0x20, s.arg.get 4), (0x24, s.arg.get 5), (0x28, s.arg.get 6), (0x2C, s.arg.get 7),
   (0x30, s.res.get 0), (0x34, s.res.get 1), (0x38, s.res.get 2), (0x3C, s.res.get 3),
   (0x40, s.res.get 4), (0x44, s.res.get 5), (0x48, s.res.get 6), (0x4C, s.res.get 7),
   (0x50, s.rect.left.setWidth 32), (0x54, s.rect.top.setWidth 32), (0x58, s.rect.width.setWidth 32),
   (0x5C, s.rect.height.setWidth 32), (0x60, skipWord s), (0x64, s.totalLineTime),
   (0x68, s.ySkipTop.setWidth 32), (0x6C, if s.aeMode then 1#32 else 0#32)]

/-- What the window reads at a word-aligned offset (10_state.md R21, R22): the register there, 0 where the table has
none. -/
def windowRead (s : State) (off : Nat) : Word := ((windowTable s).lookup off).getD 0#32

/-- A host read that a command which started from `s` answers while it runs: STATUS reads BUSY = 1 and, but for OVERRUN,
what it read when the command started; every register but STATUS and ARG reads what it did (10_state.md R25 to R27, R33;
70_reset_and_hazards.md R281). -/
def ReadsAsBefore (s : State) (x : HostRead) : Prop :=
  (x.offset = 0x04 → x.value.getLsbD 0 = true ∧
    x.value &&& ~~~4#32 = statusWord { s with phase := .run } &&& ~~~4#32) ∧
  (x.offset ≠ 0x04 → (x.offset < 0x10 ∨ 0x30 ≤ x.offset) → x.value = windowRead s x.offset)

/-- While a command runs, the host access `a` does to its state what `f` says, and the command goes on as it would have
from there. It lands before the sequence's first transaction, before a transaction is issued, or while one waits for its
answer (10_state.md R24 to R27, R33; the landing points are the model's, logs 1 and 2). -/
structure WhileRunning (a : HostAccess) (f : State → State) : Prop where
  first : ∀ i s rest, s.inputs = .hostBusy a :: rest → exec i s = exec i { f s with inputs := rest }
  unissued : ∀ p addr op s rest, s.phase = .run → s.inputs = .hostBusy a :: rest →
    transact p addr op s = transact p addr op { f s with inputs := rest }
  waiting : ∀ p addr op s rest, s.phase = .run → s.inputs = .issued :: .hostBusy a :: rest →
    transact p addr op s = transact p addr op { f s with inputs := .issued :: rest }

/-- The arguments a command names (30_encoding.md R73, R74). -/
def namesArg (i : Instr) (n : Fin 8) : Bool :=
  match i with
  | .drpRead | .pllFilter | .pllLock | .pllFields | .clkSetParent | .pllRecalcRate | .snsGetFormat => n.val < 1
  | .pllSolve | .pllRoundRate | .pllSetRate | .snsWindowSolve => n.val < 2
  | .drpWrite | .pllProgram | .snsSetFormat => n.val < 3
  | .snsGainCode | .snsShutterCode => n.val < 4
  | .snsSetCtrl => n.val < 5
  | .clkEnable | .clkDisable | .clkGetParent => false

/-- The port a command reaches, if any (20_memory.md R51). -/
def portOf : Instr → Option Port
  | .drpRead | .drpWrite | .pllProgram | .pllSetRate | .pllRecalcRate | .clkEnable | .clkDisable | .clkSetParent
  | .clkGetParent => some .clk
  | .snsSetCtrl | .snsSetFormat => some .sns
  | .pllSolve | .pllRoundRate | .pllFields | .pllFilter | .pllLock | .snsWindowSolve | .snsGainCode
  | .snsShutterCode | .snsGetFormat => none

/-! ### Gain and shutter, in integers -/

/-- The gain code in integer arithmetic: the lower segment to nearest, the upper segment by the three cases of the
gain, the coarse one with its low byte forced to 0x60 (45_sensor_control.md R202). -/
def gainCodeInt (value minimum maximum defaultValue : Int) : Int :=
  if value ≤ defaultValue then
    ((value - minimum) * 8 + (defaultValue - minimum) / 2) / (defaultValue - minimum)
  else
    let range := maximum - defaultValue - 1
    let gain := ((value - defaultValue - 1) * 1015 + range / 2) / range + 9
    if gain ≤ 32 then gain
    else if gain ≤ 64 then ((gain - 32) * 16 + 16) / 32 + 80
    else (gain - 57) * 32 / 256 * 256 + 0x60

/-- The gain operands pass the checks of 45_sensor_control.md R200. -/
def GainDomain (value minimum maximum defaultValue : Int) : Prop :=
  minimum ≤ defaultValue ∧ defaultValue ≤ maximum ∧ minimum ≤ value ∧ value ≤ maximum ∧
  (value ≤ defaultValue → minimum < defaultValue) ∧ (defaultValue < value → defaultValue + 1 < maximum)

/-- The manual-exposure operands pass the checks of 45_sensor_control.md R200. -/
def ManualDomain (value minimum maximum : Int) : Prop :=
  minimum ≤ value ∧ value ≤ maximum ∧ minimum < maximum

/-- The manual shutter in integer arithmetic (45_sensor_control.md R204). -/
def manualShutterInt (value minimum maximum : Int) : Int :=
  ((value - minimum) * 1048 + (maximum - minimum) / 2) / (maximum - minimum) + 1

/-- The `SHUTTER_UPPER`, `SHUTTER_LOWER` writes of a shutter value (45_sensor_control.md R205). -/
def shutterTrace (t : Word) : List Transaction :=
  [snsWriteOf 0x08#32 (t.extractLsb' 16 16), snsWriteOf 0x09#32 (t.extractLsb' 0 16)]

/-! ### The invariant -/

/-- The ERRINFO words that name an address the PSME issues (10_state.md R34, 20_memory.md R58). -/
def channelRecords : List Word :=
  [0x90000040#32, 0x90000044#32, 0x90000070#32, 0x90000074#32, 0xA0000001#32, 0xA0000002#32, 0xA0000003#32,
   0xA0000004#32, 0xA0000005#32, 0xA0000006#32, 0xA0000007#32, 0xA0000008#32, 0xA0000009#32, 0xA0000020#32,
   0xA0000022#32, 0xA0000023#32, 0xA0000035#32]

/-- ERRINFO fits the outcome (10_state.md R34): a record after Timeout and IoError only. -/
def RecordFits (e : ErrCode) (info : Word) : Prop :=
  match e with
  | .timeout => info = 0x90000074#32
  | .ioError => info ∈ channelRecords
  | .ok | .invalidRequest | .noFeasibleSolution | .illegalCommand => info = 0#32

/-- What holds of the PSME's state between steps, in IDLE and in RUN. -/
structure StateInv (s : State) : Prop where
  /-- STATUS.OPCODE is bits 7:0 of the last accepted word (10_state.md R27) -/
  opcode : s.opcode = s.cmd.extractLsb' 0 8
  /-- no hidden working state outside a command's sequence (10_state.md R35) -/
  hidden : HiddenEmpty s
  /-- DONE is 0 while BUSY (10_state.md R26, R27) -/
  running : s.phase = .run → s.done = false
  /-- ERR is 0 until a completion (10_state.md R26, R27) -/
  undone : s.done = false → s.err = .ok
  /-- ERRINFO fits ERR (10_state.md R34) -/
  record : RecordFits s.err s.errInfo
  /-- the skip factors lie in [1, 8] (10_state.md R29) -/
  skips : 1 ≤ s.xskip.toNat ∧ s.xskip.toNat ≤ 8 ∧ 1 ≤ s.yskip.toNat ∧ s.yskip.toNat ≤ 8
  /-- the window's extents lie in the sensor's range (44_sensor_window.md R182, R189) -/
  extents : 1 ≤ s.rect.width.toNat ∧ s.rect.width.toNat ≤ 2048 ∧ 1 ≤ s.rect.height.toNat ∧
    s.rect.height.toNat ≤ 1536
  /-- the window's origin is even (44_sensor_window.md R185, R186) -/
  origin : s.rect.left.toNat % 2 = 0 ∧ s.rect.top.toNat % 2 = 0
  /-- no command writes S.Y_SKIP_TOP (10_state.md R31) -/
  skipTop : s.ySkipTop = 0#16

end Sys2Proof.Machine
end

