-- ==== Sys2Proof/Certificates/Slice0/Obligations.lean ====
section
/-! DEFINITION. The statements for the provers. A command's statements speak of `u`, the state its sequence starts from
(`landedState s = some u`): `LandedAccessesFrame` says what `u` keeps of `s`. An expected next state is written as an
update of `u`, so everything it does not name is unchanged. -/

open Sys2Proof Sys2Proof.Machine

/-! ### Encoding and the step -/

/-- Decoding the word of a command gives the command (30_encoding.md R70, R72, R73). -/
def Obligations.EncodedCommandDecodesBack : Prop :=
  ∀ i : Instr, decode (encode i) = .ok i

/-- The decoder accepts exactly the well-formed words, and no two words decode to one command (R70, R72, R75). -/
def Obligations.DecodeAcceptsExactlyTheTable : Prop :=
  ∀ w : Word, ((∃ i, decode w = .ok i) ↔ commandWordWellFormed w = true) ∧
    ∀ i, decode w = .ok i → w = encode i

/-- Words written out from the opcode table decode to their commands, and others are rejected by name (R73, R75). -/
def Obligations.TableWordsDecode : Prop :=
  decode 0x00000001#32 = .ok .drpRead ∧ decode 0x00000010#32 = .ok .pllSolve ∧
  decode 0x00000021#32 = .ok .pllProgram ∧ decode 0x00000030#32 = .ok .snsWindowSolve ∧
  decode 0x00000044#32 = .ok .snsSetFormat ∧ decode 0x00000045#32 = .error (.reservedOpcode 0x45#8) ∧
  decode 0x00000110#32 = .error (.zeroFieldNotZero 0x110#32)

/-- In RUN, a step is `exec` of the decoded command word; a fetch word is one whose acceptance makes it the next
(10_state.md R23, R26). -/
def Obligations.RunStepExecutesTheDecodedCommand : Prop :=
  (∀ s i, s.phase = .run → decode s.cmd = .ok i → step s = exec i s) ∧
  (∀ (s : State) (w : Nat) i, decode (BitVec.ofNat 32 w) = .ok i → w < 2 ^ 32 →
    step (s.withFetchWord 32 w) = exec i
      { s with latch := s.arg, cmd := BitVec.ofNat 32 w, phase := .run, done := false, err := .ok,
               opcode := BitVec.ofNat 8 w, errInfo := 0#32 })

/-- An undecodable word completes with IllegalCommand: no transaction, no result, only the record (30_encoding.md R72,
R75; 60_exceptions.md R244). -/
def Obligations.UndecodableWordCompletesIllegalCommand : Prop :=
  ∀ s u e, s.phase = .run → decode s.cmd = .error e → landedState s = some u →
    step s = .next (afterErr u .illegalCommand 0#32)

/-! ### The host window -/

/-- A CMD write in IDLE is accepted, in one step (10_state.md R26). -/
def Obligations.CmdWriteInIdleIsAccepted : Prop :=
  ∀ s w rest, s.phase = .idle → s.inputs = .host (.write .word 0x00 w) :: rest →
    step s = .next { s with inputs := rest, latch := s.arg, cmd := w, phase := .run, done := false, err := .ok,
                            opcode := w.extractLsb' 0 8, errInfo := 0#32 }

/-- A CMD write while a command runs sets OVERRUN and changes nothing else, whatever the command and whether or not one
of its transactions waits (10_state.md R26; logs 1, 2). -/
def Obligations.CmdWriteWhileRunningOnlySetsOverrun : Prop :=
  ∀ w, WhileRunning (.write .word 0x00 w) fun s => { s with overrun := true }

/-- A write of ARGi changes ARGi, in IDLE and while a command runs, and never the latch (10_state.md R24; logs 1, 2). -/
def Obligations.ArgWriteChangesOnlyTheArgument : Prop :=
  (∀ (n : Fin 8) s v rest, s.phase = .idle → s.inputs = .host (.write .word (0x10 + 4 * n.val) v) :: rest →
    step s = .next { s with inputs := rest, arg := s.arg.set n v }) ∧
  (∀ (n : Fin 8) v, WhileRunning (.write .word (0x10 + 4 * n.val) v) fun s => { s with arg := s.arg.set n v })

/-- A STATUS write changes only OVERRUN, and only when bit 2 of the value is 1, in IDLE and while a command runs
(10_state.md R27; logs 1, 2). -/
def Obligations.StatusWriteClearsOnlyOverrun : Prop :=
  (∀ s w rest, s.phase = .idle → s.inputs = .host (.write .word 0x04 w) :: rest →
    step s = .next { s with inputs := rest, overrun := s.overrun && !w.getLsbD 2 }) ∧
  (∀ w, WhileRunning (.write .word 0x04 w) fun s => { s with overrun := s.overrun && !w.getLsbD 2 })

/-- A write to a read-only register or a reserved offset has no effect, in IDLE and while a command runs (10_state.md
R22; logs 1, 2). -/
def Obligations.OtherWritesHaveNoEffect : Prop :=
  ∀ off w, off < 0x100 → off % 4 = 0 → off ≠ 0x00 → off ≠ 0x04 → (off < 0x10 ∨ 0x30 ≤ off) →
    (∀ s rest, s.phase = .idle → s.inputs = .host (.write .word off w) :: rest →
      step s = .next { s with inputs := rest }) ∧
    WhileRunning (.write .word off w) fun s => s

/-- A host read answers the register of the window's map, and 0 at a reserved offset; it changes no PSME state. While a
command runs it answers BUSY = 1, and the results, the record and the persistent state from before the command
(10_state.md R21, R22, R25, R27, R33; 70_reset_and_hazards.md R281; logs 1, 2, 6). -/
def Obligations.HostReadAnswersTheWindow : Prop :=
  (∀ off, off < 0x100 → off % 4 = 0 →
    (∀ s rest, s.phase = .idle → s.inputs = .host (.read .word off) :: rest →
      step s = .next { s with inputs := rest, hostReads := s.hostReads ++ [⟨off, windowRead s off⟩] }) ∧
    WhileRunning (.read .word off) fun s =>
      { s with hostReads := s.hostReads ++ [⟨off, windowRead { s with phase := .run } off⟩] }) ∧
  (∀ s off v, (off, v) ∈ windowTable s → windowRead s off = v) ∧
  (∀ s off, (∀ v, (off, v) ∉ windowTable s) → windowRead s off = 0#32) ∧
  (∀ i s t, exec i s = .next t →
    ∃ made, t.hostReads = s.hostReads ++ made ∧ ∀ x ∈ made, ReadsAsBefore s x)

/-- The six outcome codes, and the bits of STATUS and of SKIP (60_exceptions.md R240; 10_state.md R21, R27, R29). -/
def Obligations.StatusAndSkipBits : Prop :=
  (ErrCode.ok.code = 0#4 ∧ ErrCode.invalidRequest.code = 1#4 ∧ ErrCode.noFeasibleSolution.code = 2#4 ∧
    ErrCode.timeout.code = 3#4 ∧ ErrCode.ioError.code = 4#4 ∧ ErrCode.illegalCommand.code = 5#4) ∧
  ∀ s : State,
    ((statusWord s).getLsbD 0 = true ↔ s.phase = .run) ∧
    (statusWord s).getLsbD 1 = s.done ∧ (statusWord s).getLsbD 2 = s.overrun ∧ (statusWord s).getLsbD 3 = false ∧
    (statusWord s).extractLsb' 4 4 = s.err.code ∧ (statusWord s).extractLsb' 8 8 = s.opcode ∧
    (statusWord s).extractLsb' 16 16 = 0#16 ∧
    (skipWord s).extractLsb' 0 4 = s.xskip ∧ (skipWord s).extractLsb' 4 4 = s.yskip ∧
    ((skipWord s).extractLsb' 8 4).toNat = min s.xskip.toNat 3 ∧
    ((skipWord s).extractLsb' 12 4).toNat = min s.yskip.toNat 3 ∧ (skipWord s).extractLsb' 16 16 = 0#16

/-- A host access outside the window faults, and one that is not an aligned word is refused (10_state.md R21, R22; U1;
the two names are the model's, log 7). -/
def Obligations.UndefinedHostAccessStops : Prop :=
  ∀ s a rest, s.phase = .idle → (s.inputs = .host a :: rest ∨ s.inputs = .hostBusy a :: rest) →
    (0x100 ≤ a.offset → step s = .fault (.outsideHostWindow a.offset)) ∧
    (a.offset < 0x100 → (a.size ≠ .word ∨ a.offset % 4 ≠ 0) → step s = .refused (.hostAccessNotWord a)) ∧
    (a.offset < 0x100 → a.size = .word → a.offset % 4 = 0 → ∃ t, step s = .next t)

/-- What the accesses that land before a command's first transaction can change: ARG, OVERRUN, the record of host reads
and the pending inputs, nothing else; and when none is pending the sequence starts from the accepted state
(10_state.md R24, R26, R33; log 2). -/
def Obligations.LandedAccessesFrame : Prop :=
  ∀ s u, landedState s = some u →
    u = { s with phase := .run, busyCount := 0, search := none, stagedRes := [], stagedState := [], arg := u.arg,
                 overrun := u.overrun, hostReads := u.hostReads, inputs := u.inputs } ∧
    (∃ landed, s.inputs = landed ++ u.inputs ∧
      ∀ x ∈ landed, ∃ a : HostAccess, x = .hostBusy a ∧ a.wellFormed = true) ∧
    (u.inputs = s.inputs → u.arg = s.arg ∧ u.overrun = s.overrun ∧ u.hostReads = s.hostReads)

/-! ### Reset -/

/-- The reset values of every piece of PSME state (70_reset_and_hazards.md R271; those of the window and of the exposure
mode are the spec's general knowledge, log 10). -/
def Obligations.ResetStateHoldsTheSpecValues : Prop :=
  let s := State.reset
  s.cmd = 0#32 ∧ statusWord s = 0#32 ∧ s.errInfo = 0#32 ∧ (∀ i, s.arg.get i = 0#32) ∧ (∀ i, s.res.get i = 0#32) ∧
  s.rect = ⟨32#16, 20#16, 2048#16, 1536#16⟩ ∧ s.xskip = 1#4 ∧ s.yskip = 1#4 ∧ skipWord s = 0x00001111#32 ∧
  s.totalLineTime = 0#32 ∧ s.ySkipTop = 0#16 ∧ s.aeMode = true ∧ (∀ i, s.latch.get i = 0#32) ∧ s.phase = .idle ∧
  HiddenEmpty s

/-- The reset input puts all PSME state to its reset value in one step, in IDLE and when a command is about to run,
which is abandoned without a completion and without a transaction (70_reset_and_hazards.md R270). -/
def Obligations.ResetInputRestoresTheResetState : Prop :=
  ∀ s rest, s.inputs = .reset :: rest →
    (∀ i, exec i s = .next (freshAfter s rest)) ∧ (s.phase = .idle → step s = .next (freshAfter s rest))

/-- A reset while a transaction waits abandons the command: nothing staged becomes visible, the transactions answered
stay, and the one in flight gets no answer, be it the command's first. A reset between two transactions leaves the second
one not made (70_reset_and_hazards.md R270; the record of it is the model's, log 4). -/
def Obligations.ResetInFlightAbandonsTheCommand : Prop :=
  (∀ p addr op s rest,
    (s.inputs = .issued :: .reset :: rest →
      transact p addr op s = .reset (freshAfter (ran s [⟨p, addr, op, .unanswered⟩] rest) rest)) ∧
    (s.inputs = .reset :: rest → transact p addr op s = .reset (freshAfter s rest))) ∧
  (∀ s u rest, landedState s = some u → u.inputs = .issued :: .reset :: rest →
    exec .clkEnable s = .next (freshAfter (ran u [⟨.clk, 0x40#32, .write 3#32, .unanswered⟩] rest) rest)) ∧
  (∀ s u v rest, landedState s = some u → (u.latch.get 0).toNat < 0x1000 → v.getLsbD 16 = false →
    (u.inputs = .answer (.value v) :: .issued :: .reset :: rest →
      exec .drpRead s = .next (freshAfter (ran u
        [⟨.clk, 0x74#32, .read, .value v⟩,
         ⟨.clk, 0x70#32, .write (0x30000000#32 ||| ((u.latch.get 0) <<< 16)), .unanswered⟩] rest) rest)) ∧
    (u.inputs = .answer (.value v) :: .reset :: rest →
      exec .drpRead s = .next (freshAfter (ran u [⟨.clk, 0x74#32, .read, .value v⟩] rest) rest)))

/-! ### DRP -/

/-- The control word: bits 31:30 zero, SEL, READ, INDEX, DATA (41_drp.md R103). -/
def Obligations.ControlWordFields : Prop :=
  ∀ (read : Bool) (idx : SubIndex) (data : Half),
    (ctrlWord read idx data).extractLsb' 30 2 = 0#2 ∧ (ctrlWord read idx data).getLsbD 29 = true ∧
    (ctrlWord read idx data).getLsbD 28 = read ∧ (ctrlWord read idx data).extractLsb' 16 12 = idx ∧
    (ctrlWord read idx data).extractLsb' 0 16 = data

/-- DRP_READ: two busy waits around the read control word; RES0 is the low half of the first status read after it that
is not busy; an index of 0x1000 or more is rejected before any access (41_drp.md R104, R106). -/
def Obligations.DrpReadReturnsTheFirstIdleStatus : Prop :=
  ∀ s u, landedState s = some u →
    (0x1000 ≤ (u.latch.get 0).toNat → exec .drpRead s = .next (afterErr u .invalidRequest 0#32)) ∧
    (∀ (r : SubRead) rest, (u.latch.get 0).toNat < 0x1000 → r.Ok → u.inputs = r.inputs ++ rest →
      exec .drpRead s = .next (afterOk (ran u (r.trace ((u.latch.get 0).extractLsb' 0 12)) rest)
        (u.res.set 0 (r.value.setWidth 32))))

/-- DRP_WRITE with the full mask: one busy wait and the control word, no read; an operand outside its form is rejected
before any access (41_drp.md R105, R107). -/
def Obligations.DrpWriteWithFullMaskMakesNoRead : Prop :=
  ∀ s u, landedState s = some u →
    ((0x1000 ≤ (u.latch.get 0).toNat ∨ 0x10000 ≤ (u.latch.get 1).toNat ∨ 0x10000 ≤ (u.latch.get 2).toNat) →
      exec .drpWrite s = .next (afterErr u .invalidRequest 0#32)) ∧
    (∀ (p : Poll) ack rest, (u.latch.get 0).toNat < 0x1000 → (u.latch.get 1).toNat < 0x10000 →
      u.latch.get 2 = 0xFFFF#32 → p.Ok → u.inputs = p.inputs ++ .answer (.value ack) :: rest →
      exec .drpWrite s = .next (afterOk (ran u (p.trace ++
        [⟨.clk, 0x70#32, .write (writeWord ((u.latch.get 0).extractLsb' 0 12) ((u.latch.get 1).extractLsb' 0 16)),
          .done⟩]) rest) u.res))

/-- DRP_WRITE with any other mask: the masked update of the value read (41_drp.md R105, R107). -/
def Obligations.DrpWriteUpdatesTheMaskedBits : Prop :=
  ∀ s u (w : SubWrite) rest, landedState s = some u → (u.latch.get 0).toNat < 0x1000 →
    (u.latch.get 1).toNat < 0x10000 → (u.latch.get 2).toNat < 0xFFFF → w.Ok → u.inputs = w.inputs ++ rest →
    exec .drpWrite s = .next (afterOk (ran u (w.trace ((u.latch.get 0).extractLsb' 0 12)
      ((u.latch.get 1).extractLsb' 0 16) ((u.latch.get 2).extractLsb' 0 16)) rest) u.res)

/-- Any busy wait whose 10000 reads are all busy makes just these and raises Timeout. So the first busy wait of each of
the five commands that wait ends the command with no further access, the second one of DRP_READ ends it after the control
word was written, and the record names CLK and 0x74 (41_drp.md R100, R106; 10_state.md R34; 60_exceptions.md R243). -/
def Obligations.BusyWaitTimesOutAfterTheBudget : Prop :=
  ∀ bs : List Word, bs.length = 10000 → (∀ b ∈ bs, b.getLsbD 16 = true) →
    let answers : List Input := bs.map fun v => .answer (.value v)
    let reads : List Transaction := bs.map fun v => ⟨.clk, 0x74#32, .read, .value v⟩
    (∀ s rest, s.inputs = answers ++ rest →
      busyWait s = .raise (.timeout .clk 0x74#32) { ran s reads rest with busyCount := 10000 }) ∧
    (∀ s u rest, landedState s = some u → u.inputs = answers ++ rest →
      let a := fun i : Fin 8 => (u.latch.get i).toNat
      let timedOut := afterErr (ran u reads rest) .timeout 0x90000074#32
      (a 0 < 0x1000 → exec .drpRead s = .next timedOut) ∧
      (a 0 < 0x1000 → a 1 < 0x10000 → a 2 < 0x10000 → exec .drpWrite s = .next timedOut) ∧
      (1 ≤ a 0 → a 0 ≤ 80 → 1 ≤ a 1 → a 1 ≤ 64 → 1 ≤ a 2 → a 2 ≤ 128 → exec .pllProgram s = .next timedOut) ∧
      (∀ b, a 0 ≠ 0 → 1000 ≤ a 1 → search psme (a 0 / 1000) (a 1 / 1000) = some b →
        exec .pllSetRate s = .next timedOut) ∧
      exec .pllRecalcRate s = .next timedOut) ∧
    (∀ s u (p : Poll) ack rest, landedState s = some u → (u.latch.get 0).toNat < 0x1000 → p.Ok →
      u.inputs = p.inputs ++ .answer (.value ack) :: answers ++ rest →
      exec .drpRead s = .next (afterErr (ran u (p.trace ++
        ⟨.clk, 0x70#32, .write (0x30000000#32 ||| ((u.latch.get 0) <<< 16)), .done⟩ :: reads) rest)
        .timeout 0x90000074#32))

/-! ### PLL solver -/

/-- The search returns a feasible pair with its nearest output divider and its error, and it is the first of least
error: smallest `m`, then smallest `d` (42_pll_solver.md R121, R124, R125). That every feasible pair is visited rests on
`M_BOUND_MODE` = exact (R123, D14; log 10): the legacy bounds can leave some out. -/
def Obligations.SearchReturnsTheFirstBestFeasiblePair : Prop :=
  ∀ fin fout b, 1 ≤ fout → search psme fin fout = some b →
    Feasible fin b.d.toNat b.m.toNat ∧ b.dout.toNat = nearestDout fin fout b.d.toNat b.m.toNat ∧
    1 ≤ b.dout.toNat ∧ b.dout.toNat ≤ 128 ∧ b.err = pairError fin fout b.d.toNat b.m.toNat ∧
    ∀ d m, Feasible fin d m → b.err ≤ pairError fin fout d m ∧
      (pairError fin fout d m = b.err → b.m.toNat < m ∨ (b.m.toNat = m ∧ b.d.toNat ≤ d))

/-- With `M_BOUND_MODE` = exact (R123, D14; log 10), the search finds nothing exactly when no pair is feasible, and for
a 32-bit parent rate that is exactly below 10 MHz (42_pll_solver.md R122, R124, R131). -/
def Obligations.SearchFailsExactlyWhenNothingIsFeasible : Prop :=
  (∀ fin fout, search psme fin fout = none ↔ ∀ d m, ¬ Feasible fin d m) ∧
  (∀ parent fout, parent < 2 ^ 32 → (search psme (parent / 1000) fout = none ↔ parent < 10000000))

/-- The triple a search returns gives a truncated VCO frequency in [600000, 1200000] kHz and an achieved rate that
fits RES3 (42_pll_solver.md R126, R131). -/
def Obligations.AchievedRateFitsItsRegister : Prop :=
  ∀ parent fout b, 1 ≤ fout → search psme (parent / 1000) fout = some b →
    let d := b.d.toNat
    let m := b.m.toNat
    600000 ≤ parent / 1000 * m / d ∧ parent / 1000 * m / d ≤ 1200000 ∧
    achievedBy parent b = parent / d * m / b.dout.toNat ∧ achievedBy parent b < 2 ^ 32

/-- PLL_SOLVE: InvalidRequest, NoFeasibleSolution, or the triple and its achieved rate in RES0 to RES3; no access
(42_pll_solver.md R120, R127). -/
def Obligations.PllSolveReportsTheSearch : Prop :=
  ∀ s u, landedState s = some u →
    let p := (u.latch.get 0).toNat
    let t := (u.latch.get 1).toNat
    ((p = 0 ∨ t < 1000) → exec .pllSolve s = .next (afterErr u .invalidRequest 0#32)) ∧
    (p ≠ 0 → 1000 ≤ t → search psme (p / 1000) (t / 1000) = none →
      exec .pllSolve s = .next (afterErr u .noFeasibleSolution 0#32)) ∧
    (∀ b, p ≠ 0 → 1000 ≤ t → search psme (p / 1000) (t / 1000) = some b →
      exec .pllSolve s = .next (afterOk u ((((u.res.set 0 (b.d.setWidth 32)).set 1 (b.m.setWidth 32)).set 2
        (b.dout.setWidth 32)).set 3 (BitVec.ofNat 32 (p / b.d.toNat * b.m.toNat / b.dout.toNat)))))

/-- PLL_ROUND_RATE: the same outcome as PLL_SOLVE for the same arguments, with the achieved rate in RES0
(42_pll_solver.md R128). -/
def Obligations.PllRoundRateReportsTheAchievedRate : Prop :=
  ∀ s u, landedState s = some u →
    let p := (u.latch.get 0).toNat
    let t := (u.latch.get 1).toNat
    ((p = 0 ∨ t < 1000) → exec .pllRoundRate s = .next (afterErr u .invalidRequest 0#32)) ∧
    (p ≠ 0 → 1000 ≤ t → search psme (p / 1000) (t / 1000) = none →
      exec .pllRoundRate s = .next (afterErr u .noFeasibleSolution 0#32)) ∧
    (∀ b, p ≠ 0 → 1000 ≤ t → search psme (p / 1000) (t / 1000) = some b →
      exec .pllRoundRate s = .next (afterOk u (u.res.set 0
        (BitVec.ofNat 32 (p / b.d.toNat * b.m.toNat / b.dout.toNat)))))

/-- PLL_FILTER: the band's constant for every index (10_state.md R36, 42_pll_solver.md R129; the constants of 1 to
46 are the spec's general knowledge, log 10). -/
def Obligations.PllFilterLooksUpItsBand : Prop :=
  ∀ s u, landedState s = some u →
    let i := (u.latch.get 0).toNat
    exec .pllFilter s = .next (afterOk u (u.res.set 0
      (if i = 0 then 0x01001990#32 else if i = 1 then 0x01001190#32 else if i = 2 then 0x01009890#32
       else if i = 3 then 0x01001890#32 else if i = 4 then 0x01008890#32 else if i ≤ 8 then 0x01009090#32
       else if i ≤ 11 then 0x01000890#32 else if i = 12 then 0x08009090#32 else if i ≤ 22 then 0x01001090#32
       else if i ≤ 36 then 0x01008090#32 else if i ≤ 46 then 0x08001090#32 else 0x08008090#32)))

/-- PLL_LOCK: the table entry below 36, the default from 36 on (10_state.md R37, 42_pll_solver.md R130). -/
def Obligations.PllLockLooksUpItsEntry : Prop :=
  encode .pllLock = 0x13#32 ∧ psme.lockTable.length = 36 ∧ psme.lockTable.head? = some 0x060603e8#32 ∧
  ∀ s u, landedState s = some u →
    (∀ c, psme.lockTable[(u.latch.get 0).toNat]? = some c → exec .pllLock s = .next (afterOk u (u.res.set 0 c))) ∧
    (36 ≤ (u.latch.get 0).toNat → exec .pllLock s = .next (afterOk u (u.res.set 0 0x1f1f00fa#32)))

/-! ### MMCM fields and clock-generator control -/

/-- The divider fields: `high` is the floor half, `low` the rest, with the properties of R151 (43_mmcm_encoder.md
R150, R151; which half is rounded up is the spec's general knowledge, log 10). -/
def Obligations.DividerFieldsSplitTheDivider : Prop :=
  ∀ divider, 1 ≤ divider →
    let f := fieldsFor psme divider
    f.high = divider / 2 ∧ f.low = divider - divider / 2 ∧ f.low + f.high = divider ∧ f.edge = divider % 2 ∧
    (f.noCount = 1 ↔ divider = 1) ∧ (f.noCount = 0 ∨ f.noCount = 1) ∧ f.low - f.high = f.edge ∧ f.high ≤ f.low ∧
    1 ≤ f.low

/-- PLL_FIELDS: the four fields in RES0 to RES3, or InvalidRequest for 0 (43_mmcm_encoder.md R155). -/
def Obligations.PllFieldsReportsTheFields : Prop :=
  ∀ s u, landedState s = some u →
    let n := (u.latch.get 0).toNat
    (n = 0 → exec .pllFields s = .next (afterErr u .invalidRequest 0#32)) ∧
    (n ≠ 0 → exec .pllFields s = .next (afterOk u ((((u.res.set 0 (BitVec.ofNat 32 (n - n / 2))).set 1
      (BitVec.ofNat 32 (n / 2))).set 2 (BitVec.ofNat 32 (n % 2))).set 3 (if n = 1 then 1#32 else 0#32))))

/-- PLL_PROGRAM: the ten masked sub-writes, in order, and nothing else; a field above its range is rejected first, then
a zero field, both before any access (43_mmcm_encoder.md R153, R154, R156; 60_exceptions.md R247; the packing is the
spec's general knowledge, log 10). -/
def Obligations.PllProgramMakesTheTenSubWrites : Prop :=
  ∀ s u, landedState s = some u →
    let d := (u.latch.get 0).toNat
    let m := (u.latch.get 1).toNat
    let dout := (u.latch.get 2).toNat
    ((80 < d ∨ 64 < m ∨ 128 < dout) → exec .pllProgram s = .next (afterErr u .invalidRequest 0#32)) ∧
    (d ≤ 80 → m ≤ 64 → dout ≤ 128 → (d = 0 ∨ m = 0 ∨ dout = 0) →
      exec .pllProgram s = .next (afterErr u .noFeasibleSolution 0#32)) ∧
    (∀ (ws : List SubWrite) rest, 1 ≤ d → d ≤ 80 → 1 ≤ m → m ≤ 64 → 1 ≤ dout → dout ≤ 128 →
      ws.length = 10 → (∀ w ∈ ws, w.Ok) → u.inputs = programInputsOf ws ++ rest →
      exec .pllProgram s = .next (afterOk (ran u (programTrace ws d m dout) rest) u.res))

/-- PLL_SET_RATE: solves, makes the ten sub-writes, and reports as PLL_SOLVE; its rejections make no access
(43_mmcm_encoder.md R157). -/
def Obligations.PllSetRateSolvesAndPrograms : Prop :=
  ∀ s u, landedState s = some u →
    let p := (u.latch.get 0).toNat
    let t := (u.latch.get 1).toNat
    ((p = 0 ∨ t < 1000) → exec .pllSetRate s = .next (afterErr u .invalidRequest 0#32)) ∧
    (p ≠ 0 → 1000 ≤ t → search psme (p / 1000) (t / 1000) = none →
      exec .pllSetRate s = .next (afterErr u .noFeasibleSolution 0#32)) ∧
    (∀ b (ws : List SubWrite) rest, p ≠ 0 → 1000 ≤ t → search psme (p / 1000) (t / 1000) = some b →
      ws.length = 10 → (∀ w ∈ ws, w.Ok) → u.inputs = programInputsOf ws ++ rest →
      exec .pllSetRate s = .next (afterOk (ran u (programTrace ws b.d.toNat b.m.toNat b.dout.toNat) rest)
        ((((u.res.set 0 (b.d.setWidth 32)).set 1 (b.m.setWidth 32)).set 2 (b.dout.setWidth 32)).set 3
          (BitVec.ofNat 32 (p / b.d.toNat * b.m.toNat / b.dout.toNat)))))

/-- CLK_ENABLE and CLK_DISABLE: one whole-word write of 3 or 1 to 0x40, or IoError with its record (43_mmcm_encoder.md
R158, R159; 10_state.md R34). -/
def Obligations.ClkEnableAndDisableWriteResetControl : Prop :=
  encode .clkEnable = 0x23#32 ∧ encode .clkDisable = 0x24#32 ∧ ∀ s u rest, landedState s = some u →
    (∀ ack, u.inputs = .answer (.value ack) :: rest →
      exec .clkEnable s = .next (afterOk (ran u [⟨.clk, 0x40#32, .write 3#32, .done⟩] rest) u.res) ∧
      exec .clkDisable s = .next (afterOk (ran u [⟨.clk, 0x40#32, .write 1#32, .done⟩] rest) u.res)) ∧
    (u.inputs = .answer .ioError :: rest →
      exec .clkEnable s = .next
        (afterErr (ran u [⟨.clk, 0x40#32, .write 3#32, .ioError⟩] rest) .ioError 0x90000040#32) ∧
      exec .clkDisable s = .next
        (afterErr (ran u [⟨.clk, 0x40#32, .write 1#32, .ioError⟩] rest) .ioError 0x90000040#32))

/-- CLK_SET_PARENT writes the index to 0x44, or rejects an index of 2 or more; CLK_GET_PARENT returns the whole word
read (43_mmcm_encoder.md R160, R161). -/
def Obligations.ClkParentCommandsAccessTheSelect : Prop :=
  ∀ s u, landedState s = some u →
    (2 ≤ (u.latch.get 0).toNat → exec .clkSetParent s = .next (afterErr u .invalidRequest 0#32)) ∧
    (∀ ack rest, (u.latch.get 0).toNat < 2 → u.inputs = .answer (.value ack) :: rest →
      exec .clkSetParent s = .next
        (afterOk (ran u [⟨.clk, 0x44#32, .write (u.latch.get 0), .done⟩] rest) u.res)) ∧
    (∀ v rest, u.inputs = .answer (.value v) :: rest →
      exec .clkGetParent s = .next (afterOk (ran u [⟨.clk, 0x44#32, .read, .value v⟩] rest) (u.res.set 0 v))) ∧
    (∀ rest, u.inputs = .answer .ioError :: rest →
      ((u.latch.get 0).toNat < 2 → exec .clkSetParent s = .next
        (afterErr (ran u [⟨.clk, 0x44#32, .write (u.latch.get 0), .ioError⟩] rest) .ioError 0x90000044#32)) ∧
      exec .clkGetParent s = .next
        (afterErr (ran u [⟨.clk, 0x44#32, .read, .ioError⟩] rest) .ioError 0x90000044#32))

/-- PLL_RECALC_RATE: reads 0x08, 0x16, 0x14 in that order, decodes `low + high` of each, and reports 0 for a zero
divider, else the rate saturated at 0xFFFFFFFF (43_mmcm_encoder.md R162, R163; the bit positions are the spec's general
knowledge, log 10). -/
def Obligations.PllRecalcRateReadsTheThreeDividers : Prop :=
  ∀ s u (ro rd rm : SubRead) rest, landedState s = some u → ro.Ok → rd.Ok → rm.Ok →
    u.inputs = ro.inputs ++ rd.inputs ++ rm.inputs ++ rest →
    let divider := fun r : SubRead => r.value.toNat % 64 + r.value.toNat / 64 % 64
    exec .pllRecalcRate s = .next (afterOk
      (ran u (ro.trace 0x08#12 ++ rd.trace 0x16#12 ++ rm.trace 0x14#12) rest)
      (u.res.set 0 (if divider rd = 0 ∨ divider rm = 0 ∨ divider ro = 0 then 0#32
        else BitVec.ofNat 32
          (min ((u.latch.get 0).toNat / divider rd * divider rm / divider ro) 0xFFFFFFFF))))

/-- With a device that stores the masked bits over zeros, the read-back of the three divider fields reconstructs the
triple whenever `dout <= 126` (70_reset_and_hazards.md R288; 43_mmcm_encoder.md R152, R153, R162; the packing is the
spec's general knowledge, log 10). -/
def Obligations.ReadBackReconstructsTheTriple : Prop :=
  ∀ d m dout, 1 ≤ d → d ≤ 80 → 1 ≤ m → m ≤ 64 → 1 ≤ dout → dout ≤ 126 →
    let stored := fun n => ((psme.mmcmPack[n]?).map fun row =>
      (row.index, psme.decodeDivider (BitVec.ofNat 16 (row.value (packInput psme d m dout)) &&& row.mask)))
    stored 0 = some (0x08#12, dout) ∧ stored 2 = some (0x14#12, m) ∧ stored 4 = some (0x16#12, d)

/-! ### Sensor window -/

/-- The configuration of this hardware meets the laws the spec asks of the parameters, the skip helper's among them
(44_sensor_window.md R181, R182, R183; end of 93_implementation_defined.md). -/
def Obligations.ConfigurationMeetsItsLaws : Prop := psme.Lawful

/-- The window properties, for every lawful configuration (44_sensor_window.md R189). -/
def Obligations.SolvedWindowIsAligned : Prop :=
  ∀ (c : Config) reqW reqH (r : Rect), c.Lawful →
    let w := windowSolve c reqW reqH r
    (w.xbin = 1 → w.left % 2 = 0) ∧ (w.xbin = 2 → w.left % 4 = 0) ∧
    (w.xbin = 3 → w.left % 6 = 0 ∧ ceil6 c.columnSkip ≤ w.left) ∧ w.top % 2 = 0 ∧
    w.width ≤ c.snsMaxWidth ∧ w.height ≤ c.snsMaxHeight ∧
    (w.xbin = 3 → r.left.toNat < c.columnSkip → w.left = ceil6 c.columnSkip)

/-- What the solver computes on this hardware: even sizes within the limits, the skip and extent of each axis, the
binning, the aligned origin (44_sensor_window.md R181 to R187; the sizes' limits and alignment, the skip helper and the
column skip are the spec's general knowledge, log 10). -/
def Obligations.WindowSolveComputesTheFactors : Prop :=
  ∀ reqW reqH (r : Rect),
    let w := windowSolve psme reqW reqH r
    let even := fun x mx => min (max x 2) mx + min (max x 2) mx % 2
    let axis := fun source target mx : Nat => if source < target + target / 2 then (1, target) else
      (min (min mx (source + target / 2) / target) 8, target * min (min mx (source + target / 2) / target) 8)
    (w.xskip, w.width) = axis r.width.toNat (even reqW 2048) 2048 ∧
    (w.yskip, w.height) = axis r.height.toNat (even reqH 1536) 1536 ∧
    w.xbin = min w.xskip 3 ∧ w.ybin = min w.yskip 3 ∧ w.top = r.top.toNat / 2 * 2 ∧
    w.left = if w.xbin = 1 then r.left.toNat / 2 * 2 else if w.xbin = 2 then r.left.toNat / 4 * 4
      else max (r.left.toNat / 6 * 6) 36

/-- SNS_WINDOW_SOLVE: the solved window for the recorded rect in RES0 to RES7, nothing else (44_sensor_window.md
R188). -/
def Obligations.SnsWindowSolveReportsTheWindow : Prop :=
  ∀ s u, landedState s = some u →
    let w := windowSolve psme (u.latch.get 0).toNat (u.latch.get 1).toNat u.rect
    exec .snsWindowSolve s = .next (afterOk u #v[BitVec.ofNat 32 w.left, BitVec.ofNat 32 w.top,
      BitVec.ofNat 32 w.width, BitVec.ofNat 32 w.height, BitVec.ofNat 32 w.xskip, BitVec.ofNat 32 w.yskip,
      BitVec.ofNat 32 w.xbin, BitVec.ofNat 32 w.ybin])

/-! ### Sensor controls -/

/-- The gain code's properties (45_sensor_control.md R203): the lower segment gives 0 to 8 and 8 at the default; the
upper segment's gain runs from 9 to 1024; the three ranges of codes. -/
def Obligations.GainCodeProperties : Prop :=
  (∀ v mn mx df, GainDomain v mn mx df → v ≤ df → gainCode v mn mx df ≤ 8 ∧ (v = df → gainCode v mn mx df = 8)) ∧
  (∀ v mn mx df, GainDomain v mn mx df → df < v → ∃ gain, 9 ≤ gain ∧ gain ≤ 1024 ∧
    gainCode v mn mx df = highGainCode gain ∧ (v = df + 1 → gain = 9) ∧ (v = mx → gain = 1024)) ∧
  (∀ gain, 9 ≤ gain → gain ≤ 32 → highGainCode gain = gain) ∧
  (∀ gain, 33 ≤ gain → gain ≤ 64 → 81 ≤ highGainCode gain ∧ highGainCode gain ≤ 96) ∧
  (∀ gain, 65 ≤ gain → gain ≤ 1024 → highGainCode gain % 256 = 0x60 ∧
    highGainCode gain / 256 = (gain - 57) * 32 / 256 ∧ highGainCode gain ≤ 0x7860) ∧
  highGainCode 1024 = 0x7860

/-- SNS_GAIN_CODE: the code in RES0, or InvalidRequest outside the domain (45_sensor_control.md R200, R202, R206). -/
def Obligations.SnsGainCodeReportsTheCode : Prop :=
  encode .snsGainCode = 0x40#32 ∧ ∀ s u, landedState s = some u →
    let v := (u.latch.get 0).toInt
    let mn := (u.latch.get 1).toInt
    let mx := (u.latch.get 2).toInt
    let df := (u.latch.get 3).toInt
    (GainDomain v mn mx df →
      exec .snsGainCode s = .next (afterOk u (u.res.set 0 (BitVec.ofInt 32 (gainCodeInt v mn mx df))))) ∧
    (¬ GainDomain v mn mx df → exec .snsGainCode s = .next (afterErr u .invalidRequest 0#32))

/-- SNS_SHUTTER_CODE: the manual or the automatic shutter in RES0, with no change of the record (45_sensor_control.md
R200, R204, R207, R212). -/
def Obligations.SnsShutterCodeReportsTheShutter : Prop :=
  ∀ s u, landedState s = some u →
    let v := (u.latch.get 1).toInt
    let mn := (u.latch.get 2).toInt
    let mx := (u.latch.get 3).toInt
    (1 < (u.latch.get 0).toNat → exec .snsShutterCode s = .next (afterErr u .invalidRequest 0#32)) ∧
    (u.latch.get 0 = 0#32 → ManualDomain v mn mx →
      exec .snsShutterCode s = .next (afterOk u (u.res.set 0 (BitVec.ofInt 32 (manualShutterInt v mn mx))))) ∧
    (u.latch.get 0 = 0#32 → ¬ ManualDomain v mn mx →
      exec .snsShutterCode s = .next (afterErr u .invalidRequest 0#32)) ∧
    (u.latch.get 0 = 1#32 →
      exec .snsShutterCode s = .next (afterOk u (u.res.set 0
        (u.rect.height.setWidth 32 + u.ySkipTop.setWidth 32 + 25#32))))

/-- SNS_SET_CTRL, GAIN: one write of the code to GLOBAL_GAIN and the code in RES0, IoError when the write fails, and
InvalidRequest before any access for operands outside the domain (45_sensor_control.md R209; the register's address is
the spec's general knowledge, log 10). -/
def Obligations.SetCtrlGainWritesTheCode : Prop :=
  ∀ s u rest, landedState s = some u → u.latch.get 0 = 1#32 →
    let v := (u.latch.get 1).toInt
    let mn := (u.latch.get 2).toInt
    let mx := (u.latch.get 3).toInt
    let df := (u.latch.get 4).toInt
    let code := gainCodeInt v mn mx df
    (¬ GainDomain v mn mx df → exec .snsSetCtrl s = .next (afterErr u .invalidRequest 0#32)) ∧
    (∀ ack, GainDomain v mn mx df → u.inputs = .answer (.value ack) :: rest →
      exec .snsSetCtrl s = .next (afterOk (ran u [snsWriteOf 0x35#32 (BitVec.ofInt 16 code)] rest)
        (u.res.set 0 (BitVec.ofInt 32 code)))) ∧
    (GainDomain v mn mx df → u.inputs = .answer .ioError :: rest →
      exec .snsSetCtrl s = .next (afterErr
        (ran u [⟨.sns, 0x35#32, .write ((BitVec.ofInt 16 code).setWidth 32), .ioError⟩] rest)
        .ioError 0xA0000035#32))

/-- SNS_SET_CTRL, EXPOSURE: both shutter halves, the mode, in automatic mode the line time, and RES0, all at success
only: a failed lower half leaves the record as it was (45_sensor_control.md R205, R210, R212). -/
def Obligations.SetCtrlExposureWritesTheShutter : Prop :=
  ∀ s u rest, landedState s = some u → u.latch.get 0 = 2#32 →
    let v := (u.latch.get 2).toInt
    let mn := (u.latch.get 3).toInt
    let mx := (u.latch.get 4).toInt
    let manual := BitVec.ofInt 32 (manualShutterInt v mn mx)
    let auto := u.rect.height.setWidth 32 + u.ySkipTop.setWidth 32 + 25#32
    (u.latch.get 1 = 0#32 → ManualDomain v mn mx →
      (∀ a b, u.inputs = .answer (.value a) :: .answer (.value b) :: rest →
        exec .snsSetCtrl s = .next
          { afterOk (ran u (shutterTrace manual) rest) (u.res.set 0 manual) with aeMode := false }) ∧
      (∀ a, u.inputs = .answer (.value a) :: .answer .ioError :: rest →
        exec .snsSetCtrl s = .next (afterErr (ran u
          [snsWriteOf 0x08#32 (manual.extractLsb' 16 16),
           ⟨.sns, 0x09#32, .write ((manual.extractLsb' 0 16).setWidth 32), .ioError⟩] rest)
          .ioError 0xA0000009#32))) ∧
    (u.latch.get 1 = 1#32 → ∀ a b, u.inputs = .answer (.value a) :: .answer (.value b) :: rest →
      exec .snsSetCtrl s = .next
        { afterOk (ran u (shutterTrace auto) rest) (u.res.set 0 auto) with aeMode := true, totalLineTime := auto })

/-- SNS_SET_CTRL, HFLIP and VFLIP: a read and always a write of READ_MODE_2, with only the selected bit changed
(45_sensor_control.md R211; 20_memory.md R55). -/
def Obligations.SetCtrlFlipUpdatesOneBit : Prop :=
  ∀ s u old ack rest, landedState s = some u → (u.latch.get 0 = 3#32 ∨ u.latch.get 0 = 4#32) →
    (u.latch.get 1).toNat ≤ 1 → u.inputs = .answer (.value old) :: .answer (.value ack) :: rest →
    ∃ new : Half,
      exec .snsSetCtrl s = .next (afterOk
        (ran u [snsReadOf 0x20#32 (old.extractLsb' 0 16), snsWriteOf 0x20#32 new] rest) u.res) ∧
      ∀ k, k < 16 → new.getLsbD k =
        if k = (if u.latch.get 0 = 3#32 then 14 else 15) then decide (u.latch.get 1 = 1#32) else old.getLsbD k

/-- SNS_SET_CTRL rejects an unknown control, a bool operand above 1 and operands outside the domain, before any access
(45_sensor_control.md R200, R208 to R211; 60_exceptions.md R241). -/
def Obligations.SetCtrlRejectsBadOperands : Prop :=
  ∀ s u, landedState s = some u →
    let c := (u.latch.get 0).toNat
    let a := fun i : Fin 8 => (u.latch.get i).toInt
    ((c = 0 ∨ 4 < c) ∨ (c = 1 ∧ ¬ GainDomain (a 1) (a 2) (a 3) (a 4)) ∨ (2 ≤ c ∧ c ≤ 4 ∧ 1 < (u.latch.get 1).toNat) ∨
      (c = 2 ∧ u.latch.get 1 = 0#32 ∧ ¬ ManualDomain (a 2) (a 3) (a 4))) →
    exec .snsSetCtrl s = .next (afterErr u .invalidRequest 0#32)

/-! ### Format -/

/-- SNS_GET_FORMAT: the effective size and the three tags, or InvalidRequest for a nonzero pad (45_sensor_control.md
R214, R215). -/
def Obligations.SnsGetFormatReportsTheEffectiveSize : Prop :=
  ∀ s u, landedState s = some u →
    (u.latch.get 0 ≠ 0#32 → exec .snsGetFormat s = .next (afterErr u .invalidRequest 0#32)) ∧
    (u.latch.get 0 = 0#32 → exec .snsGetFormat s = .next (afterOk u
      (((((u.res.set 0 (BitVec.ofNat 32 (u.rect.width.toNat / u.xskip.toNat))).set 1
        (BitVec.ofNat 32 (u.rect.height.toNat / u.yskip.toNat))).set 2 0x3007#32).set 3 8#32).set 4 1#32)))

/-- SNS_SET_FORMAT: the commit sequence in its order, the new record and the results; the address-mode writes only when
a skip changes, the shutter only in automatic mode; a nonzero pad and a window height that does not fit its register are
rejected before any access (45_sensor_control.md R201, R213, R216; addresses, blanking and encodings are the spec's
general knowledge, log 10). -/
def Obligations.SnsSetFormatCommitsTheWindow : Prop :=
  ∀ s u, landedState s = some u →
    let w := windowSolve psme (u.latch.get 1).toNat (u.latch.get 2).toNat u.rect
    let changed := w.xskip ≠ u.xskip.toNat ∨ w.yskip ≠ u.yskip.toNat
    let half := BitVec.ofNat 16
    let t := BitVec.ofNat 32 (w.height + u.ySkipTop.toNat + 25)
    ((u.latch.get 0 ≠ 0#32 ∨ 65536 < w.height + u.ySkipTop.toNat) →
      exec .snsSetFormat s = .next (afterErr u .invalidRequest 0#32)) ∧
    (∀ old0 a0 (acks : List Word) old1 a1 rest, u.latch.get 0 = 0#32 → w.height + u.ySkipTop.toNat ≤ 65536 →
      acks.length = 6 + (if changed then 2 else 0) + (if u.aeMode then 2 else 0) →
      u.inputs = [.answer (.value old0), .answer (.value a0)] ++ acks.map (fun v => .answer (.value v)) ++
        [.answer (.value old1), .answer (.value a1)] ++ rest →
      exec .snsSetFormat s = .next
        { afterOk (ran u
            ([snsReadOf 0x07#32 (old0.extractLsb' 0 16), snsWriteOf 0x07#32 (old0.extractLsb' 0 16 ||| 1#16),
              snsWriteOf 0x05#32 142#16, snsWriteOf 0x06#32 25#16] ++
             (if changed then [snsWriteOf 0x23#32 (half (16 * (w.xbin - 1) + (w.xskip - 1))),
                snsWriteOf 0x22#32 (half (16 * (w.ybin - 1) + (w.yskip - 1)))] else []) ++
             [snsWriteOf 0x02#32 (half w.left), snsWriteOf 0x01#32 (half w.top),
              snsWriteOf 0x04#32 (half (w.width - 1)),
              snsWriteOf 0x03#32 (half (w.height + u.ySkipTop.toNat - 1))] ++
             (if u.aeMode then shutterTrace t else []) ++
             [snsReadOf 0x07#32 (old1.extractLsb' 0 16),
              snsWriteOf 0x07#32 (old1.extractLsb' 0 16 &&& 0xFFFE#16)]) rest)
            (((((u.res.set 0 (BitVec.ofNat 32 (w.width / w.xskip))).set 1 (BitVec.ofNat 32 (w.height / w.yskip))).set 2
              0x3007#32).set 3 8#32).set 4 1#32) with
          rect := ⟨half w.left, half w.top, half w.width, half w.height⟩, xskip := BitVec.ofNat 4 w.xskip,
          yskip := BitVec.ofNat 4 w.yskip, totalLineTime := if u.aeMode then t else u.totalLineTime })

/-- After every successful SNS_SET_FORMAT in automatic mode, the last shutter written and S.TOTAL_LINE_TIME equal
height + verticalSkipTop + verticalBlanking of the new rect, whatever the inputs were (45_sensor_control.md R217; the
shutter registers 0x08 and 0x09 and their upper-first order are the spec's general knowledge, G13, log 10). -/
def Obligations.AutoExposureAfterEveryCommit : Prop :=
  ∀ s t, exec .snsSetFormat s = .next t → t.done = true → t.err = .ok → s.aeMode = true →
    t.totalLineTime.toNat = t.rect.height.toNat + t.ySkipTop.toNat + psme.vBlank ∧
    ∃ before after, t.trace = before ++ shutterTrace t.totalLineTime ++ after ∧
      ∀ x ∈ after, x.addr ≠ 0x08#32 ∧ x.addr ≠ 0x09#32

/-! ### Rules over all commands -/

/-- Every command ends in one step: it completes, IDLE with DONE set and its own word and latch kept, or a reset that was
among the inputs abandoned it, and the inputs after that reset stay; no hidden state is left (10_state.md R23, R35;
60_exceptions.md R246; 70_reset_and_hazards.md R270). -/
def Obligations.EveryCommandEndsIdle : Prop :=
  ∀ i s, ∃ t, exec i s = .next t ∧ t.phase = .idle ∧ HiddenEmpty t ∧
    ((t.done = true ∧ t.cmd = s.cmd ∧ t.latch = s.latch ∧ t.opcode = s.opcode) ∨
      (t = freshAfter t t.inputs ∧ ∃ before, s.inputs = before ++ .reset :: t.inputs))

/-- A command that ends with an error leaves every RESi and all persistent state as they were (10_state.md R25, R33;
60_exceptions.md R245). -/
def Obligations.ErrorLeavesResultsAndRecord : Prop :=
  ∀ i s t, exec i s = .next t → t.err ≠ .ok → t.res = s.res ∧ SamePersistent s t

/-- InvalidRequest and NoFeasibleSolution are reported before any channel access (60_exceptions.md R241, R242). -/
def Obligations.RejectionsMakeNoTransaction : Prop :=
  ∀ i s t, exec i s = .next t → (t.err = .invalidRequest ∨ t.err = .noFeasibleSolution) →
    t.trace = s.trace ∧ t.draws = s.draws ∧ t.errInfo = 0#32

/-- A read or write answered IoError raises it, on either port. Over every command: one that ends with IoError made no
failing transaction but its last, which ERRINFO names, and one that ends with Timeout ended with 10000 busy reads of
DRP_STATUS. The other way round, a command that made a transaction answered IoError ends with IoError (so that
transaction was its last), and one that made 10000 busy reads in a row ends with Timeout right after them (20_memory.md
R53, R54; 41_drp.md R100; 60_exceptions.md R243; 10_state.md R34). -/
def Obligations.FailingTransactionIsLastAndRecorded : Prop :=
  (∀ p addr s rest, s.inputs = .answer .ioError :: rest →
    memRead p addr s = .raise (.ioError p addr) (ran s [⟨p, addr, .read, .ioError⟩] rest) ∧
    ∀ v, memWrite p addr v s = .raise (.ioError p addr) (ran s [⟨p, addr, .write v, .ioError⟩] rest)) ∧
  ∀ i s t, exec i s = .next t →
    (t.err = .ioError → ∃ before p addr op, t.trace = s.trace ++ before ++ [⟨p, addr, op, .ioError⟩] ∧
      t.errInfo = errRecord p addr ∧ ∀ x ∈ before, x.reply ≠ .ioError ∧ x.reply ≠ .unanswered) ∧
    (t.err = .timeout → ∃ before, ∃ bs : List Word, t.trace = s.trace ++ before ++
        (bs.map fun v => ⟨.clk, 0x74#32, .read, .value v⟩) ∧ bs.length = 10000 ∧ (∀ b ∈ bs, b.getLsbD 16 = true) ∧
      t.errInfo = 0x90000074#32 ∧ ∀ x ∈ before, x.reply ≠ .ioError ∧ x.reply ≠ .unanswered) ∧
    (∀ made x, t.trace = s.trace ++ made → x ∈ made → x.reply = .ioError → t.err = .ioError) ∧
    (∀ before (bs : List Word) later, bs.length = 10000 → (∀ b ∈ bs, b.getLsbD 16 = true) →
      t.trace = s.trace ++ before ++ (bs.map fun v => ⟨.clk, 0x74#32, .read, .value v⟩) ++ later →
      t.err = .timeout ∧ t.errInfo = 0x90000074#32 ∧ later = [])

/-- Which commands reach which port: all transactions of a command are on its port, and the nine pure commands make
none; what a pure command reports depends only on its arguments, the tables and the persistent state (20_memory.md
R51). -/
def Obligations.CommandsReachOnlyTheirPort : Prop :=
  (∀ i s t, exec i s = .next t → ∃ made, t.trace = s.trace ++ made ∧ (∀ x ∈ made, portOf i = some x.port) ∧
    (portOf i = none → t.draws = s.draws)) ∧
  (∀ i s s' t t', portOf i = none → s'.latch = s.latch → SamePersistent s s' → s'.res = s.res →
    exec i s = .next t → exec i s' = .next t' → t.done = true → t'.done = true →
    t'.res = t.res ∧ t'.err = t.err ∧ SamePersistent s t)

/-- Which commands may change which persistent state: only SNS_SET_FORMAT the rect and the skips, only it and
SNS_SET_CTRL the line time, only SNS_SET_CTRL the mode, none S.Y_SKIP_TOP (10_state.md R28 to R32). -/
def Obligations.OnlyNamedCommandsChangeTheRecord : Prop :=
  ∀ i s t, exec i s = .next t → t.done = true →
    ((i ≠ .snsSetFormat → t.rect = s.rect ∧ t.xskip = s.xskip ∧ t.yskip = s.yskip) ∧
     (i ≠ .snsSetFormat → i ≠ .snsSetCtrl → t.totalLineTime = s.totalLineTime) ∧
     (i ≠ .snsSetCtrl → t.aeMode = s.aeMode) ∧ t.ySkipTop = s.ySkipTop)

/-- Argument registers a command does not name are ignored: changing one in the latch changes nothing else
(30_encoding.md R71, 70_reset_and_hazards.md R287). -/
def Obligations.UnnamedArgumentsAreIgnored : Prop :=
  ∀ i (n : Fin 8) v s t t', namesArg i n = false → exec i s = .next t →
    exec i { s with latch := s.latch.set n v } = .next t' → { t' with latch := t.latch } = t

/-- A step keeps the invariant, from every state that meets it (10_state.md R26 to R35; 44_sensor_window.md R189). -/
def Obligations.StepKeepsTheInvariant : Prop :=
  ∀ s t, StateInv s → step s = .next t → StateInv t

/-- The reset state meets the invariant (70_reset_and_hazards.md R271). -/
def Obligations.ResetMeetsTheInvariant : Prop := StateInv State.reset
end

