-- ==== Sys2Proof/Laws/State.lean ====
section
/-! SUPPORT. One lemma per field per update of the state, true by rfl, so that no proof unfolds a record update. -/

namespace Sys2Proof.Machine

/-! ### accept -/

@[simp] theorem accept_cmd (w : Word) (s : State) : (accept w s).cmd = w := rfl
@[simp] theorem accept_done (w : Word) (s : State) : (accept w s).done = false := rfl
@[simp] theorem accept_overrun (w : Word) (s : State) : (accept w s).overrun = s.overrun := rfl
@[simp] theorem accept_err (w : Word) (s : State) : (accept w s).err = .ok := rfl
@[simp] theorem accept_opcode (w : Word) (s : State) : (accept w s).opcode = w.extractLsb' 0 8 := rfl
@[simp] theorem accept_errInfo (w : Word) (s : State) : (accept w s).errInfo = 0#32 := rfl
@[simp] theorem accept_arg (w : Word) (s : State) : (accept w s).arg = s.arg := rfl
@[simp] theorem accept_res (w : Word) (s : State) : (accept w s).res = s.res := rfl
@[simp] theorem accept_latch (w : Word) (s : State) : (accept w s).latch = s.arg := rfl
@[simp] theorem accept_rect (w : Word) (s : State) : (accept w s).rect = s.rect := rfl
@[simp] theorem accept_xskip (w : Word) (s : State) : (accept w s).xskip = s.xskip := rfl
@[simp] theorem accept_yskip (w : Word) (s : State) : (accept w s).yskip = s.yskip := rfl
@[simp] theorem accept_totalLineTime (w : Word) (s : State) : (accept w s).totalLineTime = s.totalLineTime := rfl
@[simp] theorem accept_ySkipTop (w : Word) (s : State) : (accept w s).ySkipTop = s.ySkipTop := rfl
@[simp] theorem accept_aeMode (w : Word) (s : State) : (accept w s).aeMode = s.aeMode := rfl
@[simp] theorem accept_phase (w : Word) (s : State) : (accept w s).phase = .run := rfl
@[simp] theorem accept_busyCount (w : Word) (s : State) : (accept w s).busyCount = s.busyCount := rfl
@[simp] theorem accept_search (w : Word) (s : State) : (accept w s).search = s.search := rfl
@[simp] theorem accept_stagedRes (w : Word) (s : State) : (accept w s).stagedRes = s.stagedRes := rfl
@[simp] theorem accept_stagedState (w : Word) (s : State) : (accept w s).stagedState = s.stagedState := rfl
@[simp] theorem accept_inputs (w : Word) (s : State) : (accept w s).inputs = s.inputs := rfl
@[simp] theorem accept_trace (w : Word) (s : State) : (accept w s).trace = s.trace := rfl
@[simp] theorem accept_hostReads (w : Word) (s : State) : (accept w s).hostReads = s.hostReads := rfl
@[simp] theorem accept_draws (w : Word) (s : State) : (accept w s).draws = s.draws := rfl

/-! ### resetInput -/

@[simp] theorem resetInput_cmd (s : State) : (resetInput s).cmd = State.reset.cmd := rfl
@[simp] theorem resetInput_done (s : State) : (resetInput s).done = State.reset.done := rfl
@[simp] theorem resetInput_overrun (s : State) : (resetInput s).overrun = State.reset.overrun := rfl
@[simp] theorem resetInput_err (s : State) : (resetInput s).err = State.reset.err := rfl
@[simp] theorem resetInput_opcode (s : State) : (resetInput s).opcode = State.reset.opcode := rfl
@[simp] theorem resetInput_errInfo (s : State) : (resetInput s).errInfo = State.reset.errInfo := rfl
@[simp] theorem resetInput_arg (s : State) : (resetInput s).arg = State.reset.arg := rfl
@[simp] theorem resetInput_res (s : State) : (resetInput s).res = State.reset.res := rfl
@[simp] theorem resetInput_latch (s : State) : (resetInput s).latch = State.reset.latch := rfl
@[simp] theorem resetInput_rect (s : State) : (resetInput s).rect = State.reset.rect := rfl
@[simp] theorem resetInput_xskip (s : State) : (resetInput s).xskip = State.reset.xskip := rfl
@[simp] theorem resetInput_yskip (s : State) : (resetInput s).yskip = State.reset.yskip := rfl
@[simp] theorem resetInput_totalLineTime (s : State) : (resetInput s).totalLineTime = State.reset.totalLineTime := rfl
@[simp] theorem resetInput_ySkipTop (s : State) : (resetInput s).ySkipTop = State.reset.ySkipTop := rfl
@[simp] theorem resetInput_aeMode (s : State) : (resetInput s).aeMode = State.reset.aeMode := rfl
@[simp] theorem resetInput_phase (s : State) : (resetInput s).phase = State.reset.phase := rfl
@[simp] theorem resetInput_busyCount (s : State) : (resetInput s).busyCount = State.reset.busyCount := rfl
@[simp] theorem resetInput_search (s : State) : (resetInput s).search = State.reset.search := rfl
@[simp] theorem resetInput_stagedRes (s : State) : (resetInput s).stagedRes = State.reset.stagedRes := rfl
@[simp] theorem resetInput_stagedState (s : State) : (resetInput s).stagedState = State.reset.stagedState := rfl
@[simp] theorem resetInput_inputs (s : State) : (resetInput s).inputs = s.inputs := rfl
@[simp] theorem resetInput_trace (s : State) : (resetInput s).trace = s.trace := rfl
@[simp] theorem resetInput_hostReads (s : State) : (resetInput s).hostReads = s.hostReads := rfl
@[simp] theorem resetInput_draws (s : State) : (resetInput s).draws = s.draws := rfl

/-! ### clearHidden -/

@[simp] theorem clearHidden_cmd (s : State) : (clearHidden s).cmd = s.cmd := rfl
@[simp] theorem clearHidden_done (s : State) : (clearHidden s).done = s.done := rfl
@[simp] theorem clearHidden_overrun (s : State) : (clearHidden s).overrun = s.overrun := rfl
@[simp] theorem clearHidden_err (s : State) : (clearHidden s).err = s.err := rfl
@[simp] theorem clearHidden_opcode (s : State) : (clearHidden s).opcode = s.opcode := rfl
@[simp] theorem clearHidden_errInfo (s : State) : (clearHidden s).errInfo = s.errInfo := rfl
@[simp] theorem clearHidden_arg (s : State) : (clearHidden s).arg = s.arg := rfl
@[simp] theorem clearHidden_res (s : State) : (clearHidden s).res = s.res := rfl
@[simp] theorem clearHidden_latch (s : State) : (clearHidden s).latch = s.latch := rfl
@[simp] theorem clearHidden_rect (s : State) : (clearHidden s).rect = s.rect := rfl
@[simp] theorem clearHidden_xskip (s : State) : (clearHidden s).xskip = s.xskip := rfl
@[simp] theorem clearHidden_yskip (s : State) : (clearHidden s).yskip = s.yskip := rfl
@[simp] theorem clearHidden_totalLineTime (s : State) : (clearHidden s).totalLineTime = s.totalLineTime := rfl
@[simp] theorem clearHidden_ySkipTop (s : State) : (clearHidden s).ySkipTop = s.ySkipTop := rfl
@[simp] theorem clearHidden_aeMode (s : State) : (clearHidden s).aeMode = s.aeMode := rfl
@[simp] theorem clearHidden_phase (s : State) : (clearHidden s).phase = s.phase := rfl
@[simp] theorem clearHidden_busyCount (s : State) : (clearHidden s).busyCount = 0 := rfl
@[simp] theorem clearHidden_search (s : State) : (clearHidden s).search = none := rfl
@[simp] theorem clearHidden_stagedRes (s : State) : (clearHidden s).stagedRes = [] := rfl
@[simp] theorem clearHidden_stagedState (s : State) : (clearHidden s).stagedState = [] := rfl
@[simp] theorem clearHidden_inputs (s : State) : (clearHidden s).inputs = s.inputs := rfl
@[simp] theorem clearHidden_trace (s : State) : (clearHidden s).trace = s.trace := rfl
@[simp] theorem clearHidden_hostReads (s : State) : (clearHidden s).hostReads = s.hostReads := rfl
@[simp] theorem clearHidden_draws (s : State) : (clearHidden s).draws = s.draws := rfl

/-! ### beginRun -/

@[simp] theorem beginRun_cmd (s : State) : (beginRun s).cmd = s.cmd := rfl
@[simp] theorem beginRun_done (s : State) : (beginRun s).done = s.done := rfl
@[simp] theorem beginRun_overrun (s : State) : (beginRun s).overrun = s.overrun := rfl
@[simp] theorem beginRun_err (s : State) : (beginRun s).err = s.err := rfl
@[simp] theorem beginRun_opcode (s : State) : (beginRun s).opcode = s.opcode := rfl
@[simp] theorem beginRun_errInfo (s : State) : (beginRun s).errInfo = s.errInfo := rfl
@[simp] theorem beginRun_arg (s : State) : (beginRun s).arg = s.arg := rfl
@[simp] theorem beginRun_res (s : State) : (beginRun s).res = s.res := rfl
@[simp] theorem beginRun_latch (s : State) : (beginRun s).latch = s.latch := rfl
@[simp] theorem beginRun_rect (s : State) : (beginRun s).rect = s.rect := rfl
@[simp] theorem beginRun_xskip (s : State) : (beginRun s).xskip = s.xskip := rfl
@[simp] theorem beginRun_yskip (s : State) : (beginRun s).yskip = s.yskip := rfl
@[simp] theorem beginRun_totalLineTime (s : State) : (beginRun s).totalLineTime = s.totalLineTime := rfl
@[simp] theorem beginRun_ySkipTop (s : State) : (beginRun s).ySkipTop = s.ySkipTop := rfl
@[simp] theorem beginRun_aeMode (s : State) : (beginRun s).aeMode = s.aeMode := rfl
@[simp] theorem beginRun_phase (s : State) : (beginRun s).phase = .run := rfl
@[simp] theorem beginRun_busyCount (s : State) : (beginRun s).busyCount = 0 := rfl
@[simp] theorem beginRun_search (s : State) : (beginRun s).search = none := rfl
@[simp] theorem beginRun_stagedRes (s : State) : (beginRun s).stagedRes = [] := rfl
@[simp] theorem beginRun_stagedState (s : State) : (beginRun s).stagedState = [] := rfl
@[simp] theorem beginRun_inputs (s : State) : (beginRun s).inputs = s.inputs := rfl
@[simp] theorem beginRun_trace (s : State) : (beginRun s).trace = s.trace := rfl
@[simp] theorem beginRun_hostReads (s : State) : (beginRun s).hostReads = s.hostReads := rfl
@[simp] theorem beginRun_draws (s : State) : (beginRun s).draws = s.draws := rfl

/-! ### finish -/

@[simp] theorem finish_cmd (c : ErrCode) (i : Word) (s : State) : (finish c i s).cmd = s.cmd := rfl
@[simp] theorem finish_done (c : ErrCode) (i : Word) (s : State) : (finish c i s).done = true := rfl
@[simp] theorem finish_overrun (c : ErrCode) (i : Word) (s : State) : (finish c i s).overrun = s.overrun := rfl
@[simp] theorem finish_err (c : ErrCode) (i : Word) (s : State) : (finish c i s).err = c := rfl
@[simp] theorem finish_opcode (c : ErrCode) (i : Word) (s : State) : (finish c i s).opcode = s.opcode := rfl
@[simp] theorem finish_errInfo (c : ErrCode) (i : Word) (s : State) : (finish c i s).errInfo = i := rfl
@[simp] theorem finish_arg (c : ErrCode) (i : Word) (s : State) : (finish c i s).arg = s.arg := rfl
@[simp] theorem finish_res (c : ErrCode) (i : Word) (s : State) : (finish c i s).res = s.res := rfl
@[simp] theorem finish_latch (c : ErrCode) (i : Word) (s : State) : (finish c i s).latch = s.latch := rfl
@[simp] theorem finish_rect (c : ErrCode) (i : Word) (s : State) : (finish c i s).rect = s.rect := rfl
@[simp] theorem finish_xskip (c : ErrCode) (i : Word) (s : State) : (finish c i s).xskip = s.xskip := rfl
@[simp] theorem finish_yskip (c : ErrCode) (i : Word) (s : State) : (finish c i s).yskip = s.yskip := rfl
@[simp] theorem finish_totalLineTime (c : ErrCode) (i : Word) (s : State) : (finish c i s).totalLineTime = s.totalLineTime := rfl
@[simp] theorem finish_ySkipTop (c : ErrCode) (i : Word) (s : State) : (finish c i s).ySkipTop = s.ySkipTop := rfl
@[simp] theorem finish_aeMode (c : ErrCode) (i : Word) (s : State) : (finish c i s).aeMode = s.aeMode := rfl
@[simp] theorem finish_phase (c : ErrCode) (i : Word) (s : State) : (finish c i s).phase = .idle := rfl
@[simp] theorem finish_busyCount (c : ErrCode) (i : Word) (s : State) : (finish c i s).busyCount = 0 := rfl
@[simp] theorem finish_search (c : ErrCode) (i : Word) (s : State) : (finish c i s).search = none := rfl
@[simp] theorem finish_stagedRes (c : ErrCode) (i : Word) (s : State) : (finish c i s).stagedRes = [] := rfl
@[simp] theorem finish_stagedState (c : ErrCode) (i : Word) (s : State) : (finish c i s).stagedState = [] := rfl
@[simp] theorem finish_inputs (c : ErrCode) (i : Word) (s : State) : (finish c i s).inputs = s.inputs := rfl
@[simp] theorem finish_trace (c : ErrCode) (i : Word) (s : State) : (finish c i s).trace = s.trace := rfl
@[simp] theorem finish_hostReads (c : ErrCode) (i : Word) (s : State) : (finish c i s).hostReads = s.hostReads := rfl
@[simp] theorem finish_draws (c : ErrCode) (i : Word) (s : State) : (finish c i s).draws = s.draws := rfl

/-! ### commitState -/

@[simp] theorem commitState_rect (s : State) (r : Rect) : commitState s (.rect r) = { s with rect := r } := rfl
@[simp] theorem commitState_xskip (s : State) (v : Nibble) : commitState s (.xskip v) = { s with xskip := v } := rfl
@[simp] theorem commitState_yskip (s : State) (v : Nibble) : commitState s (.yskip v) = { s with yskip := v } := rfl
@[simp] theorem commitState_totalLineTime (s : State) (v : Word) : commitState s (.totalLineTime v) = { s with totalLineTime := v } := rfl
@[simp] theorem commitState_aeMode (s : State) (b : Bool) : commitState s (.aeMode b) = { s with aeMode := b } := rfl

/-- A staged persistent write leaves every other field of the state alone (10_state.md R28 to R33). -/
theorem commitState_keeps (s : State) (w : StateWrite) :
    commitState s w = { s with rect := (commitState s w).rect, xskip := (commitState s w).xskip,
                               yskip := (commitState s w).yskip, totalLineTime := (commitState s w).totalLineTime,
                               aeMode := (commitState s w).aeMode } := by
  cases w <;> rfl

/-- So does a list of them. -/
theorem foldl_commitState_keeps (ws : List StateWrite) (s : State) :
    ws.foldl commitState s = { s with rect := (ws.foldl commitState s).rect, xskip := (ws.foldl commitState s).xskip,
                                      yskip := (ws.foldl commitState s).yskip,
                                      totalLineTime := (ws.foldl commitState s).totalLineTime,
                                      aeMode := (ws.foldl commitState s).aeMode } := by
  induction ws generalizing s with
  | nil => rfl
  | cons w ws ih => rw [List.foldl_cons, ih (commitState s w), commitState_keeps s w]

end Sys2Proof.Machine
end

