-- ==== Sys2Proof/Laws/Ops.lean ====
section
/-! SUPPORT. One lemma per shared operation that says what it can do: sequencing, the operand forms, staging, the
channel transactions and the DRP procedures on given answers, the completion step, and the frame that every sequence
keeps. A proof cites these and does not unfold the operations. -/

namespace Sys2Proof.Machine

/-! ### Sequencing -/

theorem bind_of_ok {α β : Type} {c : Cmd α} {f : α → Cmd β} {s t : State} {a : α} (h : c s = .ok a t) :
    (c.bind f) s = f a t := by simp only [Cmd.bind, h]

theorem bind_of_raise {α β : Type} {c : Cmd α} {f : α → Cmd β} {s t : State} {e : Err} (h : c s = .raise e t) :
    (c.bind f) s = .raise e t := by simp only [Cmd.bind, h]

theorem bind_of_reset {α β : Type} {c : Cmd α} {f : α → Cmd β} {s t : State} (h : c s = .reset t) :
    (c.bind f) s = .reset t := by simp only [Cmd.bind, h]

theorem andThen_of_ok {α β : Type} {c : Cmd α} {d : Cmd β} {s t : State} {a : α} (h : c s = .ok a t) :
    (c.andThen d) s = d t := bind_of_ok h

theorem andThen_of_raise {α β : Type} {c : Cmd α} {d : Cmd β} {s t : State} {e : Err} (h : c s = .raise e t) :
    (c.andThen d) s = .raise e t := bind_of_raise h

theorem andThen_of_reset {α β : Type} {c : Cmd α} {d : Cmd β} {s t : State} (h : c s = .reset t) :
    (c.andThen d) s = .reset t := bind_of_reset h

@[simp] theorem ret_bind {α β : Type} (a : α) (f : α → Cmd β) : (Cmd.ret a).bind f = f a := rfl

@[simp] theorem ret_andThen {α β : Type} (a : α) (d : Cmd β) : (Cmd.ret a).andThen d = d := rfl

@[simp] theorem raise_bind {α β : Type} (e : Err) (f : α → Cmd β) : (raise e : Cmd α).bind f = raise e := rfl

@[simp] theorem raise_andThen {α β : Type} (e : Err) (d : Cmd β) : (raise e : Cmd α).andThen d = raise e := rfl

theorem bind_assoc {α β γ : Type} (c : Cmd α) (f : α → Cmd β) (g : β → Cmd γ) :
    (c.bind f).bind g = c.bind fun a => (f a).bind g := by
  funext s; simp only [Cmd.bind]; cases c s <;> rfl

theorem require_of_true {ok : Bool} {e : Err} (h : ok = true) : require ok e = Cmd.ret () := by rw [require, if_pos h]

theorem require_of_false {ok : Bool} {e : Err} (h : ok = false) : require ok e = raise e := by
  rw [require, h, if_neg Bool.false_ne_true]

@[simp] theorem current_bind {β : Type} (f : State → Cmd β) (s : State) : (current.bind f) s = f s s := rfl

/-! ### Operand forms -/

@[simp] theorem argWord_bind {β : Type} (i : Fin 8) (f : Word → Cmd β) (s : State) :
    ((argWord i).bind f) s = f (s.latch.get i) s := rfl

@[simp] theorem argU32_bind {β : Type} (i : Fin 8) (f : Nat → Cmd β) (s : State) :
    ((argU32 i).bind f) s = f (s.latch.get i).toNat s := rfl

@[simp] theorem argS32_bind {β : Type} (i : Fin 8) (f : Int → Cmd β) (s : State) :
    ((argS32 i).bind f) s = f (s.latch.get i).toInt s := rfl

theorem argBool_of_le {i : Fin 8} {s : State} (h : (s.latch.get i).toNat ≤ 1) :
    argBool i s = .ok (s.latch.get i == 1#32) s := by
  simp only [argBool, argWord_bind, require_of_true (decide_eq_true h), ret_andThen]; rfl

theorem argBool_of_gt {i : Fin 8} {s : State} (h : 1 < (s.latch.get i).toNat) :
    argBool i s = .raise .invalidRequest s := by
  simp only [argBool, argWord_bind, require_of_false (decide_eq_false (Nat.not_le.mpr h)), raise_andThen]; rfl

theorem argU16_of_lt {i : Fin 8} {s : State} (h : (s.latch.get i).toNat < 0x10000) :
    argU16 i s = .ok ((s.latch.get i).extractLsb' 0 16) s := by
  simp only [argU16, argWord_bind, require_of_true (decide_eq_true h), ret_andThen]; rfl

theorem argU16_of_ge {i : Fin 8} {s : State} (h : 0x10000 ≤ (s.latch.get i).toNat) :
    argU16 i s = .raise .invalidRequest s := by
  simp only [argU16, argWord_bind, require_of_false (decide_eq_false (Nat.not_lt.mpr h)), raise_andThen]; rfl

theorem argIdx12_of_lt {i : Fin 8} {s : State} (h : (s.latch.get i).toNat < 0x1000) :
    argIdx12 i s = .ok ((s.latch.get i).extractLsb' 0 12) s := by
  simp only [argIdx12, argWord_bind, require_of_true (decide_eq_true h), ret_andThen]; rfl

theorem argIdx12_of_ge {i : Fin 8} {s : State} (h : 0x1000 ≤ (s.latch.get i).toNat) :
    argIdx12 i s = .raise .invalidRequest s := by
  simp only [argIdx12, argWord_bind, require_of_false (decide_eq_false (Nat.not_lt.mpr h)), raise_andThen]; rfl

/-! ### Staging -/

@[simp] theorem stageRes_eq (i : Fin 8) (v : Word) (s : State) :
    stageRes i v s = .ok () { s with stagedRes := s.stagedRes ++ [(i, v)] } := rfl

@[simp] theorem stageState_eq (w : StateWrite) (s : State) :
    stageState w s = .ok () { s with stagedState := s.stagedState ++ [w] } := rfl

/-- Staging a list of results appends it to what is staged. -/
theorem stageResults_eq (ws : List (Fin 8 × Word)) (s : State) :
    stageResults ws s = .ok () { s with stagedRes := s.stagedRes ++ ws } := by
  induction ws generalizing s with
  | nil => simp only [stageResults, Cmd.ret, List.append_nil]
  | cons w ws ih =>
    rw [stageResults, andThen_of_ok (stageRes_eq _ _ _), ih]; simp only [List.append_assoc, List.singleton_append]

/-! ### `ran` -/

@[simp] theorem ran_inputs (u : State) (tr : List Transaction) (rest : List Input) : (ran u tr rest).inputs = rest := rfl

@[simp] theorem ran_trace (u : State) (tr : List Transaction) (rest : List Input) :
    (ran u tr rest).trace = u.trace ++ tr := rfl

@[simp] theorem ran_latch (u : State) (tr : List Transaction) (rest : List Input) : (ran u tr rest).latch = u.latch := rfl

@[simp] theorem ran_res (u : State) (tr : List Transaction) (rest : List Input) : (ran u tr rest).res = u.res := rfl

@[simp] theorem ran_stagedRes (u : State) (tr : List Transaction) (rest : List Input) :
    (ran u tr rest).stagedRes = u.stagedRes := rfl

@[simp] theorem ran_stagedState (u : State) (tr : List Transaction) (rest : List Input) :
    (ran u tr rest).stagedState = u.stagedState := rfl

theorem ran_ran (u : State) (a b : List Transaction) (r q : List Input) : ran (ran u a r) b q = ran u (a ++ b) q := by
  simp only [ran, List.append_assoc]

theorem ran_nil {u : State} {rest : List Input} (h : u.inputs = rest) : ran u [] rest = u := by
  subst h; simp only [ran, List.append_nil]

/-! ### Inputs that land while a command runs -/

/-- A host access does not look at the pending inputs. -/
theorem hostAccess_withInputs (a : HostAccess) (s : State) (l : List Input) :
    hostAccess a { s with inputs := l } = { hostAccess a s with inputs := l } := by
  cases a with
  | read sz off => simp only [hostAccess]; cases hostRegAt off <;> rfl
  | write sz off w =>
    simp only [hostAccess]
    cases hostRegAt off with
    | cmd => simp only [writeHostReg, writeCmd]; cases s.phase <;> rfl
    | status => simp only [writeHostReg, writeStatus]; split <;> rfl
    | _ => rfl

@[simp] theorem hostAccess_inputs (a : HostAccess) (s : State) : (hostAccess a s).inputs = s.inputs := by
  rw [show s = { s with inputs := s.inputs } from rfl, hostAccess_withInputs]

/-- Only the list that lands counts, not the one the state holds. -/
theorem landBusy_withInputs (l m : List Input) (s : State) : landBusy l { s with inputs := m } = landBusy l s := by
  induction l generalizing s m with
  | nil => rfl
  | cons x l ih =>
    cases x with
    | hostBusy a => simp only [landBusy, hostAccess_withInputs, ih]
    | _ => rfl

/-- A well-formed access at the head of the inputs lands before the sequence starts (log 2). -/
theorem settle_hostBusy {s : State} {a : HostAccess} {rest : List Input} (h : s.inputs = .hostBusy a :: rest)
    (ha : a.wellFormed = true) : settle s = settle { hostAccess a s with inputs := rest } := by
  simp only [settle, h, landBusy, if_pos ha, landBusy_withInputs]

/-! ### Channel transactions on given answers -/

@[simp] theorem landBusy_answer (a : Answer) (rest : List Input) (s : State) :
    landBusy (.answer a :: rest) s = .go { s with inputs := .answer a :: rest } := rfl

@[simp] theorem landBusy_issued (rest : List Input) (s : State) :
    landBusy (.issued :: rest) s = .go { s with inputs := .issued :: rest } := rfl

/-- With an answer next nothing lands. -/
theorem settle_answer {s : State} {a : Answer} {rest : List Input} (h : s.inputs = .answer a :: rest) :
    settle s = .ok () s := by
  simp only [settle, h, landBusy_answer]; rw [← h]

/-- What lands next is behind an `issued`: nothing lands before the transaction. -/
theorem settle_issued {s : State} {rest : List Input} (h : s.inputs = .issued :: rest) : settle s = .ok () s := by
  simp only [settle, h, landBusy_issued]; rw [← h]

/-- A transaction whose answer is the next input (20_memory.md R52). -/
theorem transact_answer {p : Port} {addr : Word} {op : ChanOp} {s : State} {a : Answer} {rest : List Input}
    (h : s.inputs = .answer a :: rest) :
    transact p addr op s = .ok (portAnswer p a) (ran s [⟨p, addr, op, replyOf op (portAnswer p a)⟩] rest) := by
  rw [transact, andThen_of_ok (settle_answer h)]
  simp only [inFlight, landInFlight, h, takeAnswer, ran]

/-- A reset before a transaction is issued: the transaction is not made (70_reset_and_hazards.md R270). -/
theorem transact_reset {p : Port} {addr : Word} {op : ChanOp} {s : State} {rest : List Input}
    (h : s.inputs = .reset :: rest) : transact p addr op s = .reset (freshAfter s rest) := by
  have hs : settle s = .reset (freshAfter s rest) := by simp only [settle, h, landBusy]; rfl
  rw [transact, andThen_of_reset hs]

/-- A reset while a transaction waits: it gets no answer (70_reset_and_hazards.md R270). -/
theorem transact_issued_reset {p : Port} {addr : Word} {op : ChanOp} {s : State} {rest : List Input}
    (h : s.inputs = .issued :: .reset :: rest) :
    transact p addr op s = .reset (freshAfter (ran s [⟨p, addr, op, .unanswered⟩] rest) rest) := by
  rw [transact, andThen_of_ok (settle_issued h)]
  simp only [inFlight, landInFlight, h, landBusy, ran, freshAfter, resetInput]

/-- A well-formed access before a transaction is issued lands then (log 2). -/
theorem transact_hostBusy {p : Port} {addr : Word} {op : ChanOp} {s : State} {a : HostAccess} {rest : List Input}
    (h : s.inputs = .hostBusy a :: rest) (ha : a.wellFormed = true) :
    transact p addr op s = transact p addr op { hostAccess a s with inputs := rest } := by
  simp only [transact, Cmd.andThen, Cmd.bind, settle_hostBusy h ha]

/-- A well-formed access while a transaction waits lands then (log 2). -/
theorem transact_issued_hostBusy {p : Port} {addr : Word} {op : ChanOp} {s : State} {a : HostAccess}
    {rest : List Input} (h : s.inputs = .issued :: .hostBusy a :: rest) (ha : a.wellFormed = true) :
    transact p addr op s = transact p addr op { hostAccess a s with inputs := .issued :: rest } := by
  rw [transact, andThen_of_ok (settle_issued h), andThen_of_ok (settle_issued rfl)]
  simp only [inFlight, landInFlight, h, landBusy, if_pos ha, landBusy_withInputs]

/-- A CLK read that is answered (20_memory.md R53). -/
theorem memRead_clk_value {addr v : Word} {s : State} {rest : List Input} (h : s.inputs = .answer (.value v) :: rest) :
    memRead .clk addr s = .ok v (ran s [⟨.clk, addr, .read, .value v⟩] rest) := by
  rw [memRead, bind_of_ok (transact_answer h)]; rfl

/-- A read that fails (20_memory.md R53). -/
theorem memRead_ioError {p : Port} {addr : Word} {s : State} {rest : List Input}
    (h : s.inputs = .answer .ioError :: rest) :
    memRead p addr s = .raise (.ioError p addr) (ran s [⟨p, addr, .read, .ioError⟩] rest) := by
  rw [memRead, bind_of_ok (transact_answer h)]; rfl

/-- A write that succeeds (20_memory.md R54). -/
theorem memWrite_value {p : Port} {addr v ack : Word} {s : State} {rest : List Input}
    (h : s.inputs = .answer (.value ack) :: rest) :
    memWrite p addr v s = .ok () (ran s [⟨p, addr, .write v, .done⟩] rest) := by
  rw [memWrite, bind_of_ok (transact_answer h)]; cases p <;> rfl

/-- A write that fails (20_memory.md R54). -/
theorem memWrite_ioError {p : Port} {addr v : Word} {s : State} {rest : List Input}
    (h : s.inputs = .answer .ioError :: rest) :
    memWrite p addr v s = .raise (.ioError p addr) (ran s [⟨p, addr, .write v, .ioError⟩] rest) := by
  rw [memWrite, bind_of_ok (transact_answer h)]; rfl

/-- A sensor read takes the low 16 bits of the answer (20_memory.md R53). -/
theorem snsRead_value {a : Half} {v : Word} {s : State} {rest : List Input} (h : s.inputs = .answer (.value v) :: rest) :
    snsRead a s = .ok (v.extractLsb' 0 16) (ran s [snsReadOf (a.setWidth 32) (v.extractLsb' 0 16)] rest) := by
  have hm : memRead .sns (a.setWidth 32) s =
      .ok ((v.extractLsb' 0 16).setWidth 32) (ran s [snsReadOf (a.setWidth 32) (v.extractLsb' 0 16)] rest) := by
    rw [memRead, bind_of_ok (transact_answer h)]; rfl
  rw [snsRead, bind_of_ok hm]
  have : ((v.extractLsb' 0 16).setWidth 32).extractLsb' 0 16 = v.extractLsb' 0 16 := by
    ext i hi; simp [hi]; omega
  simp only [Cmd.ret, this]

/-- A sensor write that succeeds (20_memory.md R54). -/
theorem snsWrite_value {a v : Half} {ack : Word} {s : State} {rest : List Input}
    (h : s.inputs = .answer (.value ack) :: rest) :
    snsWrite a v s = .ok () (ran s [snsWriteOf (a.setWidth 32) v] rest) := memWrite_value h

/-- `SnsUpdate`: a read and a write of the updated value (20_memory.md R55). -/
theorem snsUpdate_value {a mask : Half} {set : Bool} {v ack : Word} {s : State} {rest : List Input}
    (h : s.inputs = .answer (.value v) :: .answer (.value ack) :: rest) :
    snsUpdate a mask set s = .ok () (ran s [snsReadOf (a.setWidth 32) (v.extractLsb' 0 16),
      snsWriteOf (a.setWidth 32) (if set then v.extractLsb' 0 16 ||| mask else v.extractLsb' 0 16 &&& ~~~mask)] rest) := by
  rw [snsUpdate, bind_of_ok (snsRead_value h), snsWrite_value (ran_inputs _ _ _), ran_ran, List.singleton_append]

/-- A list of sensor writes that all succeed. -/
theorem snsWrites_value (ws : List (Half × Nat)) (acks : List Word) (hl : acks.length = ws.length) {s : State}
    {rest : List Input} (h : s.inputs = acks.map (fun v => .answer (.value v)) ++ rest) :
    snsWrites ws s =
      .ok () (ran s (ws.map fun w => snsWriteOf (w.1.setWidth 32) (BitVec.ofNat 16 w.2)) rest) := by
  induction ws generalizing s acks with
  | nil =>
    obtain rfl := List.length_eq_zero_iff.mp hl
    simp only [snsWrites, Cmd.ret, List.map_nil, ran_nil (by simpa using h)]
  | cons w ws ih =>
    obtain ⟨a, acks, rfl⟩ := List.exists_cons_of_length_eq_add_one hl
    rw [snsWrites, andThen_of_ok (snsWrite_value (by simpa using h)),
      ih acks (by simpa using hl) (ran_inputs _ _ _), ran_ran, List.map_cons, List.singleton_append]

/-- The transactions of the two shutter writes (45_sensor_control.md R205). -/
theorem shutterWrites_trace (t : Nat) :
    ((shutterWrites psme t).map fun w => snsWriteOf (w.1.setWidth 32) (BitVec.ofNat 16 w.2)) =
      shutterTrace (BitVec.ofNat 32 t) := by
  have h : ∀ x : Half, BitVec.ofNat 16 x.toNat = x := fun x => by simp
  have e : shutterWrites psme t = [(0x08#16, ((BitVec.ofNat 32 t).extractLsb' 16 16).toNat),
      (0x09#16, ((BitVec.ofNat 32 t).extractLsb' 0 16).toNat)] := rfl
  rw [e, List.map_cons, List.map_cons, List.map_nil, h, h]; rfl

/-! ### The DRP procedures on given answers -/

/-- The state with this busy-wait count. -/
def counted (k : Nat) (s : State) : State := { s with busyCount := k }

@[simp] theorem clearCount_eq (s : State) : clearCount s = .ok () (counted 0 s) := rfl

@[simp] theorem countRead_eq (s : State) : countRead s = .ok () (counted (s.busyCount + 1) s) := rfl

@[simp] theorem counted_inputs (k : Nat) (s : State) : (counted k s).inputs = s.inputs := rfl

@[simp] theorem counted_busyCount (k : Nat) (s : State) : (counted k s).busyCount = k := rfl

@[simp] theorem counted_counted (j k : Nat) (s : State) : counted j (counted k s) = counted j s := rfl

@[simp] theorem ran_counted (k : Nat) (s : State) (tr : List Transaction) (rest : List Input) :
    ran (counted k s) tr rest = counted k (ran s tr rest) := rfl

/-- The polls of a busy wait whose answers end within the budget (41_drp.md R100). -/
theorem pollLoop_ok (bs : List Word) (last : Word) (n : Nat) (hn : bs.length < n)
    (hb : ∀ b ∈ bs, b.getLsbD 16 = true) (hl : last.getLsbD 16 = false) {s : State} {rest : List Input}
    (h : s.inputs = (bs ++ [last]).map (fun v => .answer (.value v)) ++ rest) :
    ∃ k, pollLoop n s = .ok (last.extractLsb' 0 16)
      (counted k (ran s ((bs ++ [last]).map fun v => ⟨.clk, 0x74#32, .read, .value v⟩) rest)) := by
  induction bs generalizing s n with
  | nil =>
    obtain ⟨n, rfl⟩ : ∃ m, n = m + 1 := ⟨n - 1, by simp at hn; omega⟩
    refine ⟨s.busyCount + 1, ?_⟩
    rw [pollLoop, andThen_of_ok (countRead_eq s),
      bind_of_ok (memRead_clk_value (v := last) (rest := rest) (by simpa using h))]
    simp only [hl, Bool.false_eq_true, if_false, Cmd.ret, List.nil_append, List.map_cons, List.map_nil, ran_counted]
    rfl
  | cons b bs ih =>
    obtain ⟨n, rfl⟩ : ∃ m, n = m + 1 := ⟨n - 1, by simp at hn; omega⟩
    obtain ⟨k, hk⟩ := ih n (by simp at hn; omega) (fun x hx => hb x (by simp [hx]))
      (s := ran (counted (s.busyCount + 1) s) [⟨.clk, drpStatus, .read, .value b⟩]
        ((bs ++ [last]).map (fun v => .answer (.value v)) ++ rest)) rfl
    refine ⟨k, ?_⟩
    rw [pollLoop, andThen_of_ok (countRead_eq s), bind_of_ok (memRead_clk_value (v := b)
      (rest := (bs ++ [last]).map (fun v => .answer (.value v)) ++ rest) (by simpa using h))]
    simp only [hb b (by simp), if_true]
    rw [hk, ran_ran, ran_counted, counted_counted]
    rfl

/-- The polls of a busy wait that uses up its budget (41_drp.md R100). -/
theorem pollLoop_timeout (bs : List Word) (hb : ∀ b ∈ bs, b.getLsbD 16 = true) {s : State} {rest : List Input}
    (h : s.inputs = bs.map (fun v => .answer (.value v)) ++ rest) :
    pollLoop bs.length s = .raise (.timeout .clk 0x74#32)
      (counted (s.busyCount + bs.length) (ran s (bs.map fun v => ⟨.clk, 0x74#32, .read, .value v⟩) rest)) := by
  induction bs generalizing s with
  | nil => rw [List.map_nil, ran_nil (show s.inputs = rest by simpa using h)]; rfl
  | cons b bs ih =>
    have hk := ih (fun x hx => hb x (by simp [hx]))
      (s := ran (counted (s.busyCount + 1) s) [⟨.clk, drpStatus, .read, .value b⟩]
        (bs.map (fun v => .answer (.value v)) ++ rest)) rfl
    have hc : s.busyCount + 1 + bs.length = s.busyCount + (bs.length + 1) := by omega
    rw [List.length_cons, pollLoop, andThen_of_ok (countRead_eq s), bind_of_ok (memRead_clk_value (v := b)
      (rest := bs.map (fun v => .answer (.value v)) ++ rest) (by simpa using h))]
    simp only [hb b (by simp), if_true]
    rw [hk]
    simp only [ran_ran, ran_counted, counted_counted, counted_busyCount, hc]
    rfl

/-- A busy wait that ends within its budget (41_drp.md R100). -/
theorem busyWait_ok (p : Poll) (hp : p.Ok) {s : State} {rest : List Input} (h : s.inputs = p.inputs ++ rest) :
    ∃ k, busyWait s = .ok (p.last.extractLsb' 0 16) (counted k (ran s p.trace rest)) := by
  obtain ⟨k, hk⟩ := pollLoop_ok p.busy p.last drpBudget hp.1 hp.2.1 hp.2.2 (s := counted 0 s) h
  exact ⟨k, by rw [busyWait, andThen_of_ok (clearCount_eq s), hk]; rfl⟩

/-- A busy wait that times out (41_drp.md R100). -/
theorem busyWait_timeout (bs : List Word) (hn : bs.length = 10000) (hb : ∀ b ∈ bs, b.getLsbD 16 = true) {s : State}
    {rest : List Input} (h : s.inputs = bs.map (fun v => .answer (.value v)) ++ rest) :
    busyWait s = .raise (.timeout .clk 0x74#32)
      (counted 10000 (ran s (bs.map fun v => ⟨.clk, 0x74#32, .read, .value v⟩) rest)) := by
  rw [busyWait, andThen_of_ok (clearCount_eq s), show drpBudget = bs.length from hn.symm,
    pollLoop_timeout bs hb (s := counted 0 s) h]
  simp only [ran_counted, counted_counted, counted_busyCount, Nat.zero_add, hn]

theorem ctrlWord_read (idx : SubIndex) :
    ctrlWord true idx 0#16 = 0x30000000#32 ||| (idx.setWidth 32 <<< 16) := by
  rw [ctrlWord]; simp

theorem ctrlWord_write (idx : SubIndex) (data : Half) : ctrlWord false idx data = writeWord idx data := by
  simp [ctrlWord, writeWord]

/-- `DrpRead` (41_drp.md R104). -/
theorem drpRead_ok (idx : SubIndex) (r : SubRead) (hr : r.Ok) {s : State} {rest : List Input}
    (h : s.inputs = r.inputs ++ rest) :
    ∃ k, drpRead idx s = .ok r.value (counted k (ran s (r.trace idx) rest)) := by
  obtain ⟨k₁, h₁⟩ := busyWait_ok r.before hr.1 (s := s) (rest := .answer (.value r.ack) :: (r.after.inputs ++ rest))
    (by simpa [SubRead.inputs] using h)
  have h₂ := memWrite_value (p := .clk) (addr := drpCntrl) (v := ctrlWord true idx 0#16) (ack := r.ack)
    (rest := r.after.inputs ++ rest) (s := counted k₁ (ran s r.before.trace
      (.answer (.value r.ack) :: (r.after.inputs ++ rest)))) rfl
  obtain ⟨k₃, h₃⟩ := busyWait_ok r.after hr.2 (rest := rest) (ran_inputs _ _ (r.after.inputs ++ rest))
  refine ⟨k₃, ?_⟩
  rw [drpRead, andThen_of_ok h₁, andThen_of_ok h₂, h₃]
  simp only [ran_ran, ran_counted, counted_counted, SubRead.trace, ctrlWord_read]
  rfl

/-- The full-mask `DrpWrite` (41_drp.md R105). -/
theorem drpWrite_full (idx : SubIndex) (value : Half) (p : Poll) (hp : p.Ok) {s : State} {ack : Word} {rest : List Input}
    (h : s.inputs = p.inputs ++ .answer (.value ack) :: rest) :
    ∃ k, drpWrite idx value 0xFFFF#16 s = .ok ()
      (counted k (ran s (p.trace ++ [⟨.clk, 0x70#32, .write (writeWord idx value), .done⟩]) rest)) := by
  obtain ⟨k, h₁⟩ := busyWait_ok p hp h
  refine ⟨k, ?_⟩
  have : value &&& 0xFFFF#16 = value := by
    rw [show (0xFFFF#16) = BitVec.allOnes 16 from rfl, BitVec.and_allOnes]
  rw [drpWrite, andThen_of_ok h₁, drpBase, if_neg (by simp), ret_bind, ctrlWord_write,
    memWrite_value (ack := ack) (rest := rest) rfl, ran_counted, ran_ran, this, BitVec.zero_or]
  rfl

/-- The masked `DrpWrite` (41_drp.md R105). -/
theorem drpWrite_masked (idx : SubIndex) (value mask : Half) (hm : mask ≠ 0xFFFF#16) (w : SubWrite) (hw : w.Ok)
    {s : State} {rest : List Input} (h : s.inputs = w.inputs ++ rest) :
    ∃ k, drpWrite idx value mask s = .ok () (counted k (ran s (w.trace idx value mask) rest)) := by
  obtain ⟨k₁, h₁⟩ := busyWait_ok w.before hw.1 (s := s) (rest := w.old.inputs ++ .answer (.value w.ack) :: rest)
    (by simpa [SubWrite.inputs] using h)
  obtain ⟨k₂, h₂⟩ := drpRead_ok idx w.old hw.2 (s := counted k₁ (ran s w.before.trace
    (w.old.inputs ++ .answer (.value w.ack) :: rest))) (rest := .answer (.value w.ack) :: rest) rfl
  refine ⟨k₂, ?_⟩
  rw [drpWrite, andThen_of_ok h₁, drpBase, if_pos hm, bind_assoc, bind_of_ok h₂, ret_bind, ctrlWord_write,
    memWrite_value (ack := w.ack) (rest := rest) rfl]
  simp only [ran_ran, ran_counted, counted_counted, SubWrite.trace]
  rfl

/-- Some rows of `MMCM_PACK`, all with a partial mask (43_mmcm_encoder.md R153, R154). -/
theorem writeRows_masked (x : PackInput) (rows : List PackRow) (hm : ∀ r ∈ rows, r.mask ≠ 0xFFFF#16)
    (ws : List SubWrite) (hl : ws.length = rows.length) (hw : ∀ w ∈ ws, w.Ok) {s : State} {rest : List Input}
    (h : s.inputs = programInputsOf ws ++ rest) :
    ∃ k, writeRows x rows s = .ok () (counted k (ran s ((ws.zip rows).flatMap fun y =>
      y.1.trace y.2.index (BitVec.ofNat 16 (y.2.value x)) y.2.mask) rest)) := by
  induction rows generalizing s ws with
  | nil =>
    obtain rfl := List.length_eq_zero_iff.mp hl
    refine ⟨s.busyCount, ?_⟩
    rw [List.zip_nil_left, List.flatMap_nil, ran_nil (show s.inputs = rest by simpa [programInputsOf] using h)]; rfl
  | cons row rows ih =>
    obtain ⟨w, ws, rfl⟩ := List.exists_cons_of_length_eq_add_one hl
    obtain ⟨k₁, h₁⟩ := drpWrite_masked row.index (BitVec.ofNat 16 (row.value x)) row.mask (hm row (by simp)) w
      (hw w (by simp)) (s := s) (rest := programInputsOf ws ++ rest) (by simpa [programInputsOf] using h)
    obtain ⟨k₂, h₂⟩ := ih (fun r hr => hm r (by simp [hr])) ws (by simpa using hl) (fun v hv => hw v (by simp [hv]))
      (s := counted k₁ (ran s (w.trace row.index (BitVec.ofNat 16 (row.value x)) row.mask)
        (programInputsOf ws ++ rest))) rfl
    refine ⟨k₂, ?_⟩
    rw [writeRows, andThen_of_ok h₁, h₂, ran_counted, ran_ran, counted_counted, List.zip_cons_cons, List.flatMap_cons]

/-! ### A whole command -/

theorem settle_of_landed {s u : State} (h : landedState s = some u) : settle (beginRun s) = .ok () u := by
  simp only [landedState] at h
  simp only [settle, beginRun_inputs]
  cases hl : landBusy s.inputs (beginRun s) with
  | go t => simp_all
  | reset t => simp_all

/-- A command whose sequence succeeds (60_exceptions.md R246). -/
theorem runCommand_ok {body : Cmd Unit} {s u t : State} (h : landedState s = some u) (hb : body u = .ok () t) :
    runCommand body s = completeOk t := by
  simp only [runCommand, andThen_of_ok (settle_of_landed h), hb]

/-- A command whose sequence raises an error (60_exceptions.md R245, R246). -/
theorem runCommand_raise {body : Cmd Unit} {s u t : State} {e : Err} (h : landedState s = some u)
    (hb : body u = .raise e t) : runCommand body s = completeErr e t := by
  simp only [runCommand, andThen_of_ok (settle_of_landed h), hb]

/-- A command that a reset abandons in its sequence (70_reset_and_hazards.md R270). -/
theorem runCommand_reset {body : Cmd Unit} {s u t : State} (h : landedState s = some u) (hb : body u = .reset t) :
    runCommand body s = t := by
  simp only [runCommand, andThen_of_ok (settle_of_landed h), hb]

/-- A command that a reset abandons before its sequence starts. -/
theorem runCommand_not_landed {body : Cmd Unit} {s : State} (h : landedState s = none) :
    ∃ t, landBusy s.inputs (beginRun s) = .reset t ∧ runCommand body s = t := by
  simp only [landedState] at h
  cases hl : landBusy s.inputs (beginRun s) with
  | go t => simp [hl] at h
  | reset t =>
    refine ⟨t, rfl, ?_⟩
    have : settle (beginRun s) = .reset t := by simp only [settle, beginRun_inputs, hl]
    simp only [runCommand, andThen_of_reset this]

/-- A successful completion with staged results only (60_exceptions.md R246). -/
theorem completeOk_staged {t : State} (ws : List (Fin 8 × Word)) (hr : t.stagedRes = ws) (hs : t.stagedState = []) :
    completeOk t = afterOk t (ws.foldl commitRes t.res) := by
  simp only [completeOk, hr, hs, List.foldl_nil]; rfl

/-- The busy-wait count does not survive a completion (10_state.md R35). -/
@[simp] theorem afterOk_counted (k : Nat) (u : State) (res : Vector Word 8) :
    afterOk (counted k u) res = afterOk u res := rfl

@[simp] theorem completeErr_counted (e : Err) (k : Nat) (u : State) :
    completeErr e (counted k u) = completeErr e u := rfl

/-- What a completion with an error leaves (60_exceptions.md R246). -/
theorem completeErr_eq (e : Err) (u : State) : completeErr e u = afterErr u e.errCode e.info := rfl

end Sys2Proof.Machine
end

