-- ==== Sys2Proof/Laws/Frame.lean ====
section
/-! SUPPORT. The frame of a sequence: what every part of a command's sequence leaves alone, once for each shared
operation and once for each command, and what a whole command therefore leaves. -/

namespace Sys2Proof.Machine

/-- What a part of a sequence keeps of the state it starts in: everything that only acceptance, completion or reset
changes; the trace and the host reads only grow, by reads that answer what was there before, and the pending inputs only
shrink (00_scope.md R13, R15; 10_state.md R33; log 2). -/
structure Frame (s t : State) : Prop where
  cmd : t.cmd = s.cmd
  done : t.done = s.done
  err : t.err = s.err
  opcode : t.opcode = s.opcode
  errInfo : t.errInfo = s.errInfo
  res : t.res = s.res
  latch : t.latch = s.latch
  rect : t.rect = s.rect
  xskip : t.xskip = s.xskip
  yskip : t.yskip = s.yskip
  totalLineTime : t.totalLineTime = s.totalLineTime
  ySkipTop : t.ySkipTop = s.ySkipTop
  aeMode : t.aeMode = s.aeMode
  phase : t.phase = s.phase
  trace : ∃ made, t.trace = s.trace ++ made
  inputs : ∃ used, s.inputs = used ++ t.inputs
  reads : ∃ made, t.hostReads = s.hostReads ++ made ∧ ∀ x ∈ made, ReadsAsBefore s x

theorem Frame.refl (s : State) : Frame s s := by
  constructor <;> first | rfl | exact ⟨[], by simp⟩

/-- The window reads the same in two states that agree on all but STATUS and ARG, outside those. -/
theorem windowRead_congr {s t : State} {off : Nat} (hcmd : t.cmd = s.cmd) (hinfo : t.errInfo = s.errInfo)
    (hres : t.res = s.res) (hp : SamePersistent s t) (h4 : off ≠ 0x04) (h : off < 0x10 ∨ 0x30 ≤ off) :
    windowRead t off = windowRead s off := by
  obtain ⟨h₁, h₂, h₃, h₄, h₅, h₆⟩ := hp
  have e : ∀ n, 0x10 ≤ n → n < 0x30 → (off == n) = false := fun n a b => beq_false_of_ne (by omega)
  have e4 : (off == 0x04) = false := beq_false_of_ne h4
  have hsk : skipWord t = skipWord s := by simp only [skipWord, h₂, h₃]
  simp only [windowRead, windowTable, List.lookup_cons, e4, e 0x10 (by omega) (by omega), e 0x14 (by omega) (by omega),
    e 0x18 (by omega) (by omega), e 0x1C (by omega) (by omega), e 0x20 (by omega) (by omega),
    e 0x24 (by omega) (by omega), e 0x28 (by omega) (by omega), e 0x2C (by omega) (by omega), hcmd, hinfo, hres, h₁, hsk,
    h₄, h₅, h₆]

/-- STATUS but for OVERRUN. -/
theorem statusWord_congr {s t : State} (hp : t.phase = s.phase) (hd : t.done = s.done) (he : t.err = s.err)
    (ho : t.opcode = s.opcode) : statusWord t &&& ~~~4#32 = statusWord s &&& ~~~4#32 := by
  simp only [statusWord, State.busy, hp, hd, he, ho]
  cases s.overrun <;> cases t.overrun <;> first | rfl | (ext i hi; interval_cases i <;> simp)

theorem Frame.samePersistent {s t : State} (h : Frame s t) : SamePersistent s t :=
  ⟨h.rect, h.xskip, h.yskip, h.totalLineTime, h.ySkipTop, h.aeMode⟩

/-- What reads as before from a state that kept the frame read so before that. -/
theorem Frame.readsAsBefore {s t : State} (h : Frame s t) {x : HostRead} (k : ReadsAsBefore t x) :
    ReadsAsBefore s x := by
  refine ⟨fun h4 => ⟨(k.1 h4).1, (k.1 h4).2.trans ?_⟩, fun h4 ho => (k.2 h4 ho).trans ?_⟩
  · exact statusWord_congr rfl h.done h.err h.opcode
  · exact windowRead_congr h.cmd h.errInfo h.res h.samePersistent h4 ho

theorem Frame.trans {s t u : State} (h : Frame s t) (k : Frame t u) : Frame s u := by
  obtain ⟨a, ha⟩ := h.trace; obtain ⟨b, hb⟩ := k.trace
  obtain ⟨c, hc⟩ := h.inputs; obtain ⟨d, hd⟩ := k.inputs
  obtain ⟨e, he, he'⟩ := h.reads; obtain ⟨f, hf, hf'⟩ := k.reads
  exact ⟨k.cmd.trans h.cmd, k.done.trans h.done, k.err.trans h.err, k.opcode.trans h.opcode,
    k.errInfo.trans h.errInfo, k.res.trans h.res, k.latch.trans h.latch, k.rect.trans h.rect, k.xskip.trans h.xskip,
    k.yskip.trans h.yskip, k.totalLineTime.trans h.totalLineTime, k.ySkipTop.trans h.ySkipTop,
    k.aeMode.trans h.aeMode, k.phase.trans h.phase, ⟨a ++ b, by rw [hb, ha, List.append_assoc]⟩,
    ⟨c ++ d, by rw [hc, hd, List.append_assoc]⟩, ⟨e ++ f, by rw [hf, he, List.append_assoc], fun x hx =>
      (List.mem_append.mp hx).elim (he' x) fun hx => h.readsAsBefore (hf' x hx)⟩⟩

/-- How a reset ends a sequence: a reset was among the inputs, and everything is as after reset, but for the model's own
records and the inputs that came after it. -/
def Abandoned (s t : State) : Prop :=
  ∃ u, Frame s u ∧ t = freshAfter u u.inputs ∧ ∃ before, s.inputs = before ++ .reset :: t.inputs

theorem Frame.abandoned {s t u : State} (h : Frame s t) (k : Abandoned t u) : Abandoned s u := by
  obtain ⟨v, hv, rfl, before, hb⟩ := k
  obtain ⟨used, hu⟩ := h.inputs
  exact ⟨v, h.trans hv, rfl, used ++ before, by rw [hu, hb, List.append_assoc]⟩

/-- What `Framed` says of one run. -/
def FramedResult {α : Type} (s : State) : Res α → Prop
  | .ok _ t => Frame s t
  | .raise _ t => Frame s t
  | .reset t => Abandoned s t

/-- A part of a sequence keeps the frame, however it ends. -/
structure Framed {α : Type} (c : Cmd α) : Prop where
  keeps : ∀ s, s.phase = .run → FramedResult s (c s)

theorem Framed.bind {α β : Type} {c : Cmd α} {f : α → Cmd β} (hc : Framed c) (hf : ∀ a, Framed (f a)) :
    Framed (c.bind f) := by
  refine ⟨fun s hs => ?_⟩
  have h := hc.keeps s hs
  cases hcs : c s with
  | ok a t =>
    rw [hcs] at h; rw [bind_of_ok hcs]
    have k := (hf a).keeps t (Frame.phase h |>.trans hs)
    cases hft : f a t with
    | ok b u => rw [hft] at k; exact Frame.trans h k
    | raise e u => rw [hft] at k; exact Frame.trans h k
    | reset u => rw [hft] at k; exact Frame.abandoned h k
  | raise e t => rw [hcs] at h; rw [bind_of_raise hcs]; exact h
  | reset t => rw [hcs] at h; rw [bind_of_reset hcs]; exact h

theorem Framed.andThen {α β : Type} {c : Cmd α} {d : Cmd β} (hc : Framed c) (hd : Framed d) :
    Framed (c.andThen d) := hc.bind fun _ => hd

theorem framed_ret {α : Type} (a : α) : Framed (Cmd.ret a) := ⟨fun s _ => Frame.refl s⟩

theorem framed_raise {α : Type} (e : Err) : Framed (raise e : Cmd α) := ⟨fun s _ => Frame.refl s⟩

theorem framed_require (ok : Bool) (e : Err) : Framed (require ok e) := by
  cases ok
  · exact framed_raise e
  · exact framed_ret ()

theorem framed_current : Framed current := ⟨fun s _ => Frame.refl s⟩

theorem framed_argWord (i : Fin 8) : Framed (argWord i) := ⟨fun s _ => Frame.refl s⟩

theorem framed_argU32 (i : Fin 8) : Framed (argU32 i) := ⟨fun s _ => Frame.refl s⟩

theorem framed_argS32 (i : Fin 8) : Framed (argS32 i) := ⟨fun s _ => Frame.refl s⟩

theorem framed_argBool (i : Fin 8) : Framed (argBool i) :=
  (framed_argWord i).bind fun _ => (framed_require _ _).andThen (framed_ret _)

theorem framed_argU16 (i : Fin 8) : Framed (argU16 i) :=
  (framed_argWord i).bind fun _ => (framed_require _ _).andThen (framed_ret _)

theorem framed_argIdx12 (i : Fin 8) : Framed (argIdx12 i) :=
  (framed_argWord i).bind fun _ => (framed_require _ _).andThen (framed_ret _)

theorem framed_stageRes (i : Fin 8) (v : Word) : Framed (stageRes i v) := by
  refine ⟨fun s _ => ?_⟩; constructor <;> first | rfl | exact ⟨[], by simp⟩

theorem framed_stageState (w : StateWrite) : Framed (stageState w) := by
  refine ⟨fun s _ => ?_⟩; constructor <;> first | rfl | exact ⟨[], by simp⟩

theorem framed_stageResults (ws : List (Fin 8 × Word)) : Framed (stageResults ws) := by
  induction ws with
  | nil => exact framed_ret ()
  | cons w ws ih => exact (framed_stageRes _ _).andThen ih

/-- The window's table is the map of registers (10_state.md R21). -/
theorem windowRead_eq (s : State) {off : Nat} (h : off < 0x100) (h4 : off % 4 = 0) :
    windowRead s off = readHostReg (hostRegAt off) s := by
  obtain ⟨k, rfl⟩ : ∃ k, off = 4 * k := ⟨off / 4, by omega⟩
  have hk : k < 64 := by omega
  have ha : (if s.aeMode then 1#32 else 0#32) = (BitVec.ofBool s.aeMode).setWidth 32 := by cases s.aeMode <;> rfl
  interval_cases k <;> first | rfl | exact ha

/-- A host access while the engine runs (10_state.md R24 to R27). -/
theorem hostAccess_frame (a : HostAccess) {s : State} (hs : s.phase = .run) (hw : a.wellFormed = true) :
    Frame s (hostAccess a s) := by
  cases a with
  | read sz off =>
    have hoff : off < 0x100 ∧ off % 4 = 0 := by
      simp [HostAccess.wellFormed, HostAccess.inWindow, HostAccess.isWord, HostAccess.offset] at hw
      exact ⟨of_decide_eq_true hw.1, hw.2.2⟩
    have hrun : { s with phase := .run } = s := by rw [← hs]
    have hread : ReadsAsBefore s ⟨off, readHostReg (hostRegAt off) s⟩ := by
      refine ⟨fun h => ?_, fun _ _ => (windowRead_eq s hoff.1 hoff.2).symm⟩
      have : readHostReg (hostRegAt off) s = statusWord s := by rw [show off = 0x04 from h]; rfl
      rw [hrun]
      refine ⟨?_, by rw [this]⟩
      show (readHostReg (hostRegAt off) s).getLsbD 0 = true
      rw [this]; simp [statusWord, State.busy, hs]
    have reads : ∃ made, (hostAccess (.read sz off) s).hostReads = s.hostReads ++ made ∧
        ∀ x ∈ made, ReadsAsBefore s x := ⟨_, rfl, by simpa using hread⟩
    constructor <;> first | rfl | exact reads | exact ⟨[], by simp [hostAccess]⟩
  | write sz off w =>
    simp only [hostAccess]
    cases hostRegAt off with
    | cmd =>
      have : writeCmd w s = { s with overrun := true } := by simp only [writeCmd, hs]
      simp only [writeHostReg, this]
      constructor <;> first | rfl | exact ⟨[], by simp⟩
    | status =>
      simp only [writeHostReg, writeStatus]
      split
      · constructor <;> first | rfl | exact ⟨[], by simp⟩
      · exact Frame.refl s
    | arg i => constructor <;> first | rfl | exact ⟨[], by simp [writeHostReg]⟩
    | _ => exact Frame.refl s

/-- What the inputs that land while a command runs can do (log 2). -/
theorem landBusy_frame (l : List Input) {s : State} (hs : s.phase = .run) (hl : ∃ used, s.inputs = used ++ l) :
    match landBusy l s with
    | .go t => Frame s t
    | .reset t => Abandoned s t := by
  induction l generalizing s with
  | nil => simp only [landBusy]; constructor <;> first | rfl | exact hl | exact ⟨[], by simp⟩
  | cons x l ih =>
    have drop : ∃ used, s.inputs = used ++ l := by
      obtain ⟨used, h⟩ := hl; exact ⟨used ++ [x], by simp [h]⟩
    cases x with
    | host a => simp only [landBusy]; constructor <;> first | rfl | exact hl | exact ⟨[], by simp⟩
    | answer a => simp only [landBusy]; constructor <;> first | rfl | exact hl | exact ⟨[], by simp⟩
    | issued => simp only [landBusy]; constructor <;> first | rfl | exact hl | exact ⟨[], by simp⟩
    | reset =>
      simp only [landBusy]
      refine ⟨{ s with inputs := l }, ?_, rfl, hl⟩
      constructor <;> first | rfl | exact drop | exact ⟨[], by simp⟩
    | hostBusy a =>
      cases hw : a.wellFormed
      · simp only [landBusy, hw, Bool.false_eq_true, if_false]
        constructor <;> first | rfl | exact hl | exact ⟨[], by simp⟩
      · simp only [landBusy, hw, if_true]
        have k := hostAccess_frame a hs hw
        have hin : (hostAccess a s).inputs = s.inputs := by
          cases a with
          | read sz off => rfl
          | write sz off w =>
            simp only [hostAccess]
            cases hostRegAt off with
            | cmd => simp [writeHostReg, writeCmd, hs]
            | status => simp only [writeHostReg, writeStatus]; split <;> rfl
            | _ => rfl
        have h := ih (s := hostAccess a s) (k.phase.trans hs) (by rw [hin]; exact drop)
        cases hlb : landBusy l (hostAccess a s) with
        | go t => simp only [hlb] at h ⊢; exact k.trans h
        | reset t => simp only [hlb] at h ⊢; exact k.abandoned h

theorem framed_settle : Framed settle := by
  refine ⟨fun s hs => ?_⟩
  have h := landBusy_frame s.inputs hs ⟨[], rfl⟩
  simp only [settle]
  cases hl : landBusy s.inputs s with
  | go t => rw [hl] at h; exact h
  | reset t => rw [hl] at h; exact h

/-- Taking an answer uses the next input or a free value, and nothing else (20_memory.md R52; log 3). -/
theorem takeAnswer_frame (s : State) : Frame s (takeAnswer s).2 := by
  unfold takeAnswer
  split
  · next a rest h => constructor <;> first | rfl | exact ⟨[.answer a], by simp [h]⟩ | exact ⟨[], by simp⟩
  · constructor <;> first | rfl | exact ⟨[], by simp⟩

/-- Recording transactions keeps the frame. -/
theorem recorded_frame (s : State) (tr : List Transaction) : Frame s { s with trace := s.trace ++ tr } := by
  constructor <;> first | rfl | exact ⟨_, rfl⟩ | exact ⟨[], by simp⟩

/-- What the inputs that land while a transaction waits can do (log 2). -/
theorem landInFlight_frame {s : State} (hs : s.phase = .run) :
    match landInFlight s with
    | .go t => Frame s t
    | .reset t => Abandoned s t := by
  have h : landInFlight s = .go s ∨ ∃ rest, s.inputs = .issued :: rest ∧ landInFlight s = landBusy rest s := by
    unfold landInFlight; split
    · next rest h => exact .inr ⟨rest, h, rfl⟩
    · exact .inl rfl
  obtain h | ⟨rest, hr, h⟩ := h
  · rw [h]; exact Frame.refl s
  · rw [h]; exact landBusy_frame rest hs ⟨[.issued], hr⟩

theorem framed_inFlight (p : Port) (addr : Word) (op : ChanOp) : Framed (inFlight p addr op) := by
  refine ⟨fun s hs => ?_⟩
  have h := landInFlight_frame hs
  simp only [inFlight]
  cases hl : landInFlight s with
  | go t =>
    rw [hl] at h
    have k := takeAnswer_frame t
    have ht : (takeAnswer t).2.trace = t.trace := by unfold takeAnswer; split <;> rfl
    have r := recorded_frame (takeAnswer t).2
      [⟨p, addr, op, replyOf op (portAnswer p (takeAnswer t).1)⟩]
    rw [ht] at r
    exact (h.trans k).trans r
  | reset t =>
    rw [hl] at h
    obtain ⟨u, hu, rfl, hb⟩ := h
    exact ⟨{ u with trace := u.trace ++ [⟨p, addr, op, .unanswered⟩] }, hu.trans (recorded_frame u _), rfl, hb⟩

theorem framed_transact (p : Port) (addr : Word) (op : ChanOp) : Framed (transact p addr op) :=
  framed_settle.andThen (framed_inFlight p addr op)

theorem framed_memRead (p : Port) (addr : Word) : Framed (memRead p addr) :=
  (framed_transact _ _ _).bind fun a => by cases a <;> first | exact framed_ret _ | exact framed_raise _

theorem framed_memWrite (p : Port) (addr v : Word) : Framed (memWrite p addr v) :=
  (framed_transact _ _ _).bind fun a => by cases a <;> first | exact framed_ret _ | exact framed_raise _

theorem framed_snsRead (a : Half) : Framed (snsRead a) := (framed_memRead _ _).bind fun _ => framed_ret _

theorem framed_snsWrite (a v : Half) : Framed (snsWrite a v) := framed_memWrite _ _ _

theorem framed_snsUpdate (a mask : Half) (set : Bool) : Framed (snsUpdate a mask set) :=
  (framed_snsRead _).bind fun _ => framed_snsWrite _ _

theorem framed_snsWrites (ws : List (Half × Nat)) : Framed (snsWrites ws) := by
  induction ws with
  | nil => exact framed_ret ()
  | cons w ws ih => exact (framed_snsWrite _ _).andThen ih

theorem framed_clearCount : Framed clearCount := by
  refine ⟨fun s _ => ?_⟩; constructor <;> first | rfl | exact ⟨[], by simp⟩

theorem framed_countRead : Framed countRead := by
  refine ⟨fun s _ => ?_⟩; constructor <;> first | rfl | exact ⟨[], by simp⟩

theorem framed_pollLoop (n : Nat) : Framed (pollLoop n) := by
  induction n with
  | zero => exact framed_raise _
  | succ n ih =>
    refine framed_countRead.andThen ((framed_memRead _ _).bind fun v => ?_)
    split
    · exact ih
    · exact framed_ret _

theorem framed_busyWait : Framed busyWait := framed_clearCount.andThen (framed_pollLoop _)

theorem framed_drpRead (idx : SubIndex) : Framed (drpRead idx) :=
  framed_busyWait.andThen ((framed_memWrite _ _ _).andThen framed_busyWait)

theorem framed_drpBase (idx : SubIndex) (mask : Half) : Framed (drpBase idx mask) := by
  unfold drpBase
  split
  · exact (framed_drpRead _).bind fun _ => framed_ret _
  · exact framed_ret _

theorem framed_drpWrite (idx : SubIndex) (value mask : Half) : Framed (drpWrite idx value mask) :=
  framed_busyWait.andThen ((framed_drpBase _ _).bind fun _ => framed_memWrite _ _ _)

theorem framed_writeRows (x : PackInput) (rows : List PackRow) : Framed (writeRows x rows) := by
  induction rows with
  | nil => exact framed_ret ()
  | cons row rows ih => exact (framed_drpWrite _ _ _).andThen ih

theorem framed_programSequence (c : Config) (d m dout : Nat) : Framed (programSequence c d m dout) :=
  framed_writeRows _ _

theorem framed_noteSearch (b : Best) : Framed (noteSearch b) := by
  refine ⟨fun s _ => ?_⟩; constructor <;> first | rfl | exact ⟨[], by simp⟩

theorem framed_orRaise {α : Type} (e : Err) (x : Option α) : Framed (orRaise e x) := by
  cases x with
  | none => exact framed_raise e
  | some a => exact framed_ret a

theorem framed_solve (c : Config) (parentRateHz targetRateHz : Nat) : Framed (solve c parentRateHz targetRateHz) :=
  (framed_orRaise _ _).bind fun _ => (framed_orRaise _ _).bind fun b => (framed_noteSearch b).andThen (framed_ret b)

theorem framed_shutterCode (c : Config) (automatic : Bool) (value minimum maximum : Int) :
    Framed (shutterCode c automatic value minimum maximum) := by
  unfold shutterCode
  split
  · exact framed_current.bind fun _ => framed_ret _
  · exact (framed_require _ _).andThen (framed_ret _)

theorem framed_stageFormat (c : Config) (s : State) (w : Window) : Framed (stageFormat c s w) := by
  unfold stageFormat
  refine Framed.andThen ?_ ((framed_stageState _).andThen ((framed_stageState _).andThen (framed_stageState _)))
  split
  · exact framed_stageState _
  · exact framed_ret _

/-! ### The sequences of the commands -/

/-- The sequence of a command, as `exec` runs it. -/
def bodyOf : Instr → Cmd Unit
  | .drpRead => drpReadBody
  | .drpWrite => drpWriteBody
  | .pllSolve => pllSolveBody psme
  | .pllRoundRate => pllRoundRateBody psme
  | .pllFilter => pllFilterBody psme
  | .pllLock => pllLockBody psme
  | .pllFields => pllFieldsBody psme
  | .pllProgram => pllProgramBody psme
  | .pllSetRate => pllSetRateBody psme
  | .clkEnable => memWrite .clk resetCtrl 0x00000003#32
  | .clkDisable => memWrite .clk resetCtrl 0x00000001#32
  | .clkSetParent => clkSetParentBody
  | .clkGetParent => (memRead .clk clkSel).bind fun v => stageRes 0 v
  | .pllRecalcRate => pllRecalcRateBody psme
  | .snsWindowSolve => snsWindowSolveBody psme
  | .snsGainCode => snsGainCodeBody
  | .snsShutterCode => snsShutterCodeBody psme
  | .snsSetCtrl => snsSetCtrlBody psme
  | .snsGetFormat => snsGetFormatBody psme
  | .snsSetFormat => snsSetFormatBody psme

/-- `exec` runs the command's sequence. -/
theorem exec_eq (i : Instr) (s : State) : exec i s = .next (runCommand (bodyOf i) s) := by cases i <;> rfl

theorem framed_setGain (c : Config) : Framed (setGain c) := by
  unfold setGain
  refine (framed_argS32 _).bind fun _ => ?_
  refine (framed_argS32 _).bind fun _ => ?_
  refine (framed_argS32 _).bind fun _ => ?_
  refine (framed_argS32 _).bind fun _ => ?_
  refine (framed_require _ _).andThen ?_
  refine (framed_require _ _).andThen ?_
  refine (framed_snsWrites _).andThen ?_
  exact framed_stageRes _ _

theorem framed_setExposure (c : Config) : Framed (setExposure c) := by
  unfold setExposure
  refine (framed_argBool _).bind fun automatic => ?_
  refine (framed_argS32 _).bind fun _ => ?_
  refine (framed_argS32 _).bind fun _ => ?_
  refine (framed_argS32 _).bind fun _ => ?_
  refine (framed_shutterCode _ _ _ _ _).bind fun _ => ?_
  refine (framed_require _ _).andThen ?_
  refine (framed_snsWrites _).andThen ?_
  refine (framed_stageState _).andThen ?_
  refine Framed.andThen ?_ (framed_stageRes _ _)
  cases automatic
  · exact framed_ret ()
  · exact framed_stageState _

theorem framed_setFlip (c : Config) (mask : Half) : Framed (setFlip c mask) := by
  unfold setFlip
  refine (framed_argBool _).bind fun _ => ?_
  exact framed_snsUpdate _ _ _

theorem framed_drpReadBody : Framed drpReadBody := by
  unfold drpReadBody
  refine (framed_argIdx12 _).bind fun _ => ?_
  refine (framed_drpRead _).bind fun _ => ?_
  exact framed_stageRes _ _

theorem framed_drpWriteBody : Framed drpWriteBody := by
  unfold drpWriteBody
  refine (framed_argIdx12 _).bind fun _ => ?_
  refine (framed_argU16 _).bind fun _ => ?_
  refine (framed_argU16 _).bind fun _ => ?_
  exact framed_drpWrite _ _ _

theorem framed_pllSolveBody (c : Config) : Framed (pllSolveBody c) := by
  unfold pllSolveBody
  refine (framed_argU32 _).bind fun _ => ?_
  refine (framed_argU32 _).bind fun _ => ?_
  refine (framed_solve _ _ _).bind fun _ => ?_
  exact framed_stageResults _

theorem framed_pllRoundRateBody (c : Config) : Framed (pllRoundRateBody c) := by
  unfold pllRoundRateBody
  refine (framed_argU32 _).bind fun _ => ?_
  refine (framed_argU32 _).bind fun _ => ?_
  refine (framed_solve _ _ _).bind fun _ => ?_
  exact framed_stageRes _ _

theorem framed_pllFilterBody (c : Config) : Framed (pllFilterBody c) := by
  unfold pllFilterBody
  refine (framed_argU32 _).bind fun _ => ?_
  exact framed_stageRes _ _

theorem framed_pllLockBody (c : Config) : Framed (pllLockBody c) := by
  unfold pllLockBody
  refine (framed_argU32 _).bind fun _ => ?_
  exact framed_stageRes _ _

theorem framed_pllFieldsBody (c : Config) : Framed (pllFieldsBody c) := by
  unfold pllFieldsBody
  refine (framed_argU32 _).bind fun _ => ?_
  refine (framed_require _ _).andThen ?_
  exact framed_stageResults _

theorem framed_pllProgramBody (c : Config) : Framed (pllProgramBody c) := by
  unfold pllProgramBody
  refine (framed_argU32 _).bind fun _ => ?_
  refine (framed_argU32 _).bind fun _ => ?_
  refine (framed_argU32 _).bind fun _ => ?_
  refine (framed_require _ _).andThen ?_
  refine (framed_require _ _).andThen ?_
  exact framed_programSequence _ _ _ _

theorem framed_pllSetRateBody (c : Config) : Framed (pllSetRateBody c) := by
  unfold pllSetRateBody
  refine (framed_argU32 _).bind fun _ => ?_
  refine (framed_argU32 _).bind fun _ => ?_
  refine (framed_solve _ _ _).bind fun _ => ?_
  refine (framed_programSequence _ _ _ _).andThen ?_
  exact framed_stageResults _

theorem framed_clkSetParentBody : Framed clkSetParentBody := by
  unfold clkSetParentBody
  refine (framed_argWord _).bind fun _ => ?_
  refine (framed_require _ _).andThen ?_
  exact framed_memWrite _ _ _

theorem framed_pllRecalcRateBody (c : Config) : Framed (pllRecalcRateBody c) := by
  unfold pllRecalcRateBody
  refine (framed_argU32 _).bind fun _ => ?_
  refine (framed_drpRead _).bind fun _ => ?_
  refine (framed_drpRead _).bind fun _ => ?_
  refine (framed_drpRead _).bind fun _ => ?_
  exact framed_stageRes _ _

theorem framed_snsWindowSolveBody (c : Config) : Framed (snsWindowSolveBody c) := by
  unfold snsWindowSolveBody
  refine (framed_argU32 _).bind fun _ => ?_
  refine (framed_argU32 _).bind fun _ => ?_
  refine framed_current.bind fun _ => ?_
  exact framed_stageResults _

theorem framed_snsGainCodeBody : Framed snsGainCodeBody := by
  unfold snsGainCodeBody
  refine (framed_argS32 _).bind fun _ => ?_
  refine (framed_argS32 _).bind fun _ => ?_
  refine (framed_argS32 _).bind fun _ => ?_
  refine (framed_argS32 _).bind fun _ => ?_
  refine (framed_require _ _).andThen ?_
  exact framed_stageRes _ _

theorem framed_snsShutterCodeBody (c : Config) : Framed (snsShutterCodeBody c) := by
  unfold snsShutterCodeBody
  refine (framed_argBool _).bind fun _ => ?_
  refine (framed_argS32 _).bind fun _ => ?_
  refine (framed_argS32 _).bind fun _ => ?_
  refine (framed_argS32 _).bind fun _ => ?_
  refine (framed_shutterCode _ _ _ _ _).bind fun _ => ?_
  exact framed_stageRes _ _

theorem framed_snsGetFormatBody (c : Config) : Framed (snsGetFormatBody c) := by
  unfold snsGetFormatBody
  refine (framed_argU32 _).bind fun _ => ?_
  refine (framed_require _ _).andThen ?_
  refine framed_current.bind fun _ => ?_
  exact framed_stageResults _

theorem framed_commitFormat (c : Config) (s : State) (w : Window) : Framed (commitFormat c s w) := by
  unfold commitFormat
  refine (framed_require _ _).andThen ?_
  refine (framed_snsUpdate _ _ _).andThen ?_
  refine (framed_snsWrites _).andThen ?_
  refine (framed_snsUpdate _ _ _).andThen ?_
  refine (framed_stageFormat _ _ _).andThen ?_
  exact framed_stageResults _

theorem framed_snsSetFormatBody (c : Config) : Framed (snsSetFormatBody c) := by
  unfold snsSetFormatBody
  refine (framed_argU32 _).bind fun _ => ?_
  refine (framed_argU32 _).bind fun _ => ?_
  refine (framed_argU32 _).bind fun _ => ?_
  refine (framed_require _ _).andThen ?_
  refine framed_current.bind fun _ => ?_
  exact framed_commitFormat _ _ _

theorem framed_snsSetCtrlBody (c : Config) : Framed (snsSetCtrlBody c) := by
  unfold snsSetCtrlBody
  refine (framed_argU32 _).bind fun control => ?_
  split
  · exact framed_setGain _
  · exact framed_setExposure _
  · exact framed_setFlip _ _
  · exact framed_setFlip _ _
  · exact framed_raise _

/-- Every command's sequence keeps the frame. -/
theorem framed_bodyOf (i : Instr) : Framed (bodyOf i) := by
  cases i with
  | drpRead => exact framed_drpReadBody
  | drpWrite => exact framed_drpWriteBody
  | pllSolve => exact framed_pllSolveBody _
  | pllRoundRate => exact framed_pllRoundRateBody _
  | pllFilter => exact framed_pllFilterBody _
  | pllLock => exact framed_pllLockBody _
  | pllFields => exact framed_pllFieldsBody _
  | pllProgram => exact framed_pllProgramBody _
  | pllSetRate => exact framed_pllSetRateBody _
  | clkEnable => exact framed_memWrite _ _ _
  | clkDisable => exact framed_memWrite _ _ _
  | clkSetParent => exact framed_clkSetParentBody
  | clkGetParent => exact (framed_memRead _ _).bind fun _ => framed_stageRes _ _
  | pllRecalcRate => exact framed_pllRecalcRateBody _
  | snsWindowSolve => exact framed_snsWindowSolveBody _
  | snsGainCode => exact framed_snsGainCodeBody
  | snsShutterCode => exact framed_snsShutterCodeBody _
  | snsSetCtrl => exact framed_snsSetCtrlBody _
  | snsGetFormat => exact framed_snsGetFormatBody _
  | snsSetFormat => exact framed_snsSetFormatBody _

/-! ### A whole command -/

/-- How a command ends: completed from a state its sequence keeps, without or with an error, or abandoned by a reset. -/
theorem runCommand_cases (i : Instr) (s : State) :
    (∃ t, Frame (beginRun s) t ∧ runCommand (bodyOf i) s = completeOk t) ∨
    (∃ e t, Frame (beginRun s) t ∧ runCommand (bodyOf i) s = completeErr e t) ∨
    Abandoned (beginRun s) (runCommand (bodyOf i) s) := by
  have h := (framed_settle.andThen (framed_bodyOf i)).keeps (beginRun s) rfl
  simp only [runCommand]
  cases hb : (settle.andThen (bodyOf i)) (beginRun s) with
  | ok a t => rw [hb] at h; exact .inl ⟨t, h, rfl⟩
  | raise e t => rw [hb] at h; exact .inr (.inl ⟨e, t, h, rfl⟩)
  | reset t => rw [hb] at h; exact .inr (.inr h)

end Sys2Proof.Machine
end

