-- ==== Sys2Proof/Machine/HostProgram.lean ====
section
/-! DEFINITION. Host programs (30_encoding.md R76, R77): what each statement does on the host bus, and a program run
from a state (log 12). -/

namespace Sys2Proof.Machine

/-! ### Expansion -/

/-- `ARG 0, a0` ... `ARG k, ak`, from argument `n` upwards (R77). There are eight argument registers. -/
def argStmts : Nat → List Word → List HostStmt
  | _, [] => []
  | n, v :: rest => if h : n < 8 then .arg ⟨n, h⟩ v :: argStmts (n + 1) rest else []

/-- The expansion of a pseudo-instruction (R77). -/
def expandPseudo : PseudoStmt → List HostStmt
  | .call i operands => argStmts 0 operands ++ [.cmd i, .wait]
  | .snsSetGain v mn mx df => argStmts 0 [1#32, v, mn, mx, df] ++ [.cmd .snsSetCtrl, .wait]
  | .snsSetExposure mode v mn mx => argStmts 0 [2#32, mode, v, mn, mx] ++ [.cmd .snsSetCtrl, .wait]
  | .snsSetHFlip on => argStmts 0 [3#32, on] ++ [.cmd .snsSetCtrl, .wait]
  | .snsSetVFlip on => argStmts 0 [4#32, on] ++ [.cmd .snsSetCtrl, .wait]

/-! ### Statements -/

/-- The read of STATUS that a `WAIT` repeats (R76). -/
def statusRead : HostAccess := .read .word 0x04

/-- What a `WAIT`'s event is as an input. -/
def WaitEvent.input : WaitEvent → Input
  | .poll => .hostBusy statusRead
  | .answer a => .answer a
  | .issued => .issued

/-- A host access made at once: in IDLE it is the engine's next step, and while a command runs it has its effect right
away, before the command goes on (10_state.md R24, R26; log 2). A program's accesses are aligned words of the window. -/
def hostDoes (a : HostAccess) (s : State) : Host.Outcome State Fault Refusal :=
  match s.phase with
  | .idle => step { s with inputs := .host a :: s.inputs }
  | .run => .next (hostAccess a s)

/-- Of the polls meant for the command, those it left no time for are not made, since the host reads BUSY = 0 first. -/
def dropPolls (s : State) : State := { s with inputs := s.inputs.filter fun x => x != .hostBusy statusRead }

/-- The command that runs, if one does, comes to its end while these events go on; each poll of them that it leaves time
for reads BUSY = 1. -/
def commandEnds (events : List WaitEvent) (s : State) : Host.Outcome State Fault Refusal :=
  match s.phase with
  | .idle => .next s
  | .run =>
    match step { s with inputs := s.inputs ++ events.map WaitEvent.input } with
    | .next t => .next (dropPolls t)
    | .fault f => .fault f
    | .refused r => .refused r

/-- `WAIT`: read STATUS until BUSY is 0 (R76). The polls among the events read BUSY = 1; the read that the engine answers
in IDLE reads BUSY = 0 and is the last. -/
def waitIdle (events : List WaitEvent) (s : State) : Host.Outcome State Fault Refusal :=
  match commandEnds events s with
  | .next t => hostDoes statusRead t
  | .fault f => .fault f
  | .refused r => .refused r

/-- `EXPECT reg, v` holds in a state: the host register at this offset reads `v` (R76). -/
def expectHolds (offset : Nat) (v : Word) (s : State) : Bool := readHostReg (hostRegAt offset) s == v

/-! ### Programs -/

/-- How a run of a host program ends. -/
inductive HostRun where
  /-- after its last statement -/
  | finished (s : State)
  /-- an `EXPECT` does not hold in this state -/
  | unexpected (offset : Nat) (v : Word) (s : State)
  | fault (f : Fault)
  | refused (r : Refusal)
  deriving DecidableEq, Repr

/-- What follows a statement's bus action, when the machine goes on. -/
def HostRun.after (o : Host.Outcome State Fault Refusal) (k : State → HostRun) : HostRun :=
  match o with
  | .next s => k s
  | .fault f => .fault f
  | .refused r => .refused r

/-- A run of primitive statements (R76), with the events of each `WAIT` in turn (a `WAIT` beyond them has none), then
what follows them. -/
def runStmts : List HostStmt → List (List WaitEvent) → State → (List (List WaitEvent) → State → HostRun) → HostRun
  | [], waits, s, k => k waits s
  | .arg n v :: rest, waits, s, k =>
    .after (hostDoes (.write .word (0x10 + 4 * n.val) v) s) fun t => runStmts rest waits t k
  | .cmd i :: rest, waits, s, k => .after (hostDoes (.write .word 0x00 (encode i)) s) fun t => runStmts rest waits t k
  | .wait :: rest, waits, s, k => .after (waitIdle (waits.headD []) s) fun t => runStmts rest waits.tail t k
  | .expect off v :: rest, waits, s, k => if expectHolds off v s then runStmts rest waits s k else .unexpected off v s

/-- A run of a host program (R76, R77): every line has its effect before the next one is read. -/
def runProgram : List HostLine → List (List WaitEvent) → State → HostRun
  | [], _, s => .finished s
  | .stmt x :: rest, waits, s => runStmts [x] waits s fun w t => runProgram rest w t
  | .pseudo p :: rest, waits, s => runStmts (expandPseudo p) waits s fun w t => runProgram rest w t
  | .ends events :: rest, waits, s => .after (commandEnds events s) fun t => runProgram rest waits t

end Sys2Proof.Machine
end

