-- ==== Sys2Proof/Laws/HostProgram.lean ====
section
/-! SUPPORT. What the operations of a host program do. -/

namespace Sys2Proof.Machine

/-- A step in RUN ends in IDLE: the command completed, or a reset abandoned it (60_exceptions.md R246). -/
theorem step_of_run {s : State} (hs : s.phase = .run) : ∃ t, step s = .next t ∧ t.phase = .idle := by
  cases hd : decode s.cmd with
  | ok i =>
    refine ⟨runCommand (bodyOf i) s, by simp only [step, hs, hd, exec_eq], ?_⟩
    obtain ⟨t, _, h⟩ | ⟨e, t, _, h⟩ | ⟨t, _, h, _⟩ := runCommand_cases i s <;> rw [h] <;> rfl
  | error e =>
    refine ⟨runCommand (raise .illegalCommand) s, by simp only [step, hs, hd, execIllegal], ?_⟩
    have h := (framed_settle.andThen (framed_raise (α := Unit) .illegalCommand)).keeps (beginRun s) rfl
    simp only [runCommand]
    cases hb : (settle.andThen (raise .illegalCommand : Cmd Unit)) (beginRun s) with
    | ok a t => rfl
    | raise e t => rfl
    | reset t => rw [hb] at h; obtain ⟨u, _, rfl, _⟩ := h; rfl

/-- The STATUS read of an idle engine (10_state.md R27). -/
theorem hostDoes_statusRead {s : State} (hs : s.phase = .idle) :
    hostDoes statusRead s = .next { s with hostReads := s.hostReads ++ [⟨0x04, statusWord s⟩] } := by
  have hin : statusRead.inWindow = true := by decide
  have hw : statusRead.isWord = true := by decide
  simp only [hostDoes, hs, step, idleStep, hostStep, hin, hw, Bool.true_eq_false, if_false]
  simp only [hostAccess, statusRead]
  rw [show hostRegAt 0x04 = .status from rfl]
  simp only [readHostReg, statusWord, State.busy, hs]

theorem statusWord_idle {s : State} (hs : s.phase = .idle) : (statusWord s).getLsbD 0 = false := by
  simp [statusWord, State.busy, hs]

/-- A host access does not look at the hidden working state that a command starts without. -/
theorem hostAccess_beginRun (a : HostAccess) {s : State} (hs : s.phase = .run) :
    hostAccess a (beginRun s) = beginRun (hostAccess a s) := by
  cases s; subst hs
  cases a with
  | read sz off => simp only [hostAccess]; cases hostRegAt off <;> rfl
  | write sz off w =>
    simp only [hostAccess]
    cases hostRegAt off with
    | status => simp only [writeHostReg, writeStatus]; split <;> rfl
    | _ => rfl

/-- What a program does while a command runs is what a host access that lands before the command's sequence does: the
effect is there at once, and the command goes on as it would (log 2). -/
theorem hostDoes_running {a : HostAccess} {s : State} (hs : s.phase = .run) (ha : a.wellFormed = true) :
    hostDoes a s = .next (hostAccess a s) ∧
      step (hostAccess a s) = step { s with inputs := .hostBusy a :: s.inputs } := by
  refine ⟨by simp only [hostDoes, hs], ?_⟩
  have k := hostAccess_frame a hs ha
  have hl : settle (beginRun { s with inputs := .hostBusy a :: s.inputs }) = settle (beginRun (hostAccess a s)) := by
    rw [settle_hostBusy (s := beginRun { s with inputs := .hostBusy a :: s.inputs }) rfl ha, ← hostAccess_beginRun a hs]
    congr 1
    rw [show beginRun { s with inputs := .hostBusy a :: s.inputs } =
      { beginRun s with inputs := .hostBusy a :: s.inputs } from rfl, hostAccess_withInputs]
    show { hostAccess a (beginRun s) with inputs := s.inputs } = _
    rw [← hostAccess_withInputs]; rfl
  have run : ∀ body : Cmd Unit, runCommand body (hostAccess a s) =
      runCommand body { s with inputs := .hostBusy a :: s.inputs } := fun body => by
    simp only [runCommand, Cmd.andThen, Cmd.bind, hl]
  cases hd : decode s.cmd <;> simp only [step, k.phase, k.cmd, hs, hd, exec_eq, execIllegal, run]

/-- The command that runs comes to its end: the engine is IDLE after it. -/
theorem commandEnds_idle (events : List WaitEvent) (s : State) :
    ∃ t, commandEnds events s = .next t ∧ t.phase = .idle := by
  cases hs : s.phase with
  | idle => exact ⟨s, by simp only [commandEnds, hs], hs⟩
  | run =>
    obtain ⟨t, ht, hp⟩ := step_of_run (s := { s with inputs := s.inputs ++ events.map WaitEvent.input }) hs
    exact ⟨dropPolls t, by simp only [commandEnds, hs] at ht ⊢; rw [ht], hp⟩

/-- A `WAIT` ends with the engine IDLE, and its last read of STATUS is one that reads BUSY = 0 (30_encoding.md R76). -/
theorem waitIdle_ends (events : List WaitEvent) (s : State) : ∃ t before v, waitIdle events s = .next t ∧
    t.phase = .idle ∧ t.hostReads = before ++ [⟨0x04, v⟩] ∧ v.getLsbD 0 = false := by
  obtain ⟨t, ht, hp⟩ := commandEnds_idle events s
  have h : waitIdle events s = hostDoes statusRead t := by simp only [waitIdle, ht]
  exact ⟨_, _, _, h.trans (hostDoes_statusRead hp), hp, rfl, statusWord_idle hp⟩

end Sys2Proof.Machine
end

