-- ==== Sys2Proof/Laws/PerInstr.lean ====
section
/-! SUPPORT. Statements made for every command, one lemma for each constructor: the shape of its command word. -/

namespace Sys2Proof.Laws

/-- A command's word is well formed: ZERO is 0 and the opcode is assigned (30_encoding.md R70, R73). -/
def WordShape.Statement (i : Instr) : Prop := commandWordWellFormed (encode i) = true

theorem WordShape.drpRead : WordShape.Statement .drpRead := rfl

theorem WordShape.drpWrite : WordShape.Statement .drpWrite := rfl

theorem WordShape.pllSolve : WordShape.Statement .pllSolve := rfl

theorem WordShape.pllRoundRate : WordShape.Statement .pllRoundRate := rfl

theorem WordShape.pllFilter : WordShape.Statement .pllFilter := rfl

theorem WordShape.pllLock : WordShape.Statement .pllLock := rfl

theorem WordShape.pllFields : WordShape.Statement .pllFields := rfl

theorem WordShape.pllProgram : WordShape.Statement .pllProgram := rfl

theorem WordShape.pllSetRate : WordShape.Statement .pllSetRate := rfl

theorem WordShape.clkEnable : WordShape.Statement .clkEnable := rfl

theorem WordShape.clkDisable : WordShape.Statement .clkDisable := rfl

theorem WordShape.clkSetParent : WordShape.Statement .clkSetParent := rfl

theorem WordShape.clkGetParent : WordShape.Statement .clkGetParent := rfl

theorem WordShape.pllRecalcRate : WordShape.Statement .pllRecalcRate := rfl

theorem WordShape.snsWindowSolve : WordShape.Statement .snsWindowSolve := rfl

theorem WordShape.snsGainCode : WordShape.Statement .snsGainCode := rfl

theorem WordShape.snsShutterCode : WordShape.Statement .snsShutterCode := rfl

theorem WordShape.snsSetCtrl : WordShape.Statement .snsSetCtrl := rfl

theorem WordShape.snsGetFormat : WordShape.Statement .snsGetFormat := rfl

theorem WordShape.snsSetFormat : WordShape.Statement .snsSetFormat := rfl

end Sys2Proof.Laws
end

