-- ==== Sys2Proof/Tests/Slice0.lean ====
section
/-! SUPPORT. The model's own tests: ill-formed terms refused, every command word of spec/opcode_table.json decoded, one
step of each command on the vectors of spec/95_test_vectors.md (the vector's name stands in each comment), and for every
statement with hypotheses a state and operands that meet them. -/

open Sys2Proof Sys2Proof.Machine

namespace Sys2Proof.Tests

-- One thread: the kernel's checks of these tests wait for one another, and every thread that waits holds a whole stack.
set_option Elab.async false

/-! ### Helpers -/

/-- A device's answer. -/
def ans (v : Word) : Input := .answer (.value v)

/-- The reset state with a command accepted: its latched arguments and what the world will do. -/
def running (args : List Word) (inputs : List Input) : State :=
  { State.reset with latch := Vector.ofFn fun i => args.getD i.val 0#32, phase := .run, inputs := inputs }

/-- The state in which a command's sequence starts is the one given, when a device answers first or nothing is
pending. -/
theorem landed_answer (args : List Word) (a : Answer) (rest : List Input) :
    landedState (running args (.answer a :: rest)) = some (running args (.answer a :: rest)) := rfl

theorem landed_none (args : List Word) : landedState (running args []) = some (running args []) := rfl

/-- The next state of a command. -/
def after (i : Instr) (s : State) : Option State :=
  match exec i s with
  | .next t => some t
  | .fault _ => none
  | .refused _ => none

/-- ERR, ERRINFO and the first `n` results of a command. -/
def outcome (n : Nat) (i : Instr) (s : State) : Option (ErrCode × Word × List Word) :=
  (after i s).map fun t => (t.err, t.errInfo, t.res.toList.take n)

/-- The writes a command makes, as address and value. -/
def writes (i : Instr) (s : State) : Option (List (Word × Word)) :=
  (after i s).map fun t => t.trace.filterMap fun x =>
    match x.op with
    | .write v => some (x.addr, v)
    | .read => none

/-! ### Well-formedness -/

theorem test_wf_zero_field : commandWordWellFormed 0x00000110#32 = false := by decide
theorem test_wf_zero_opcode : commandWordWellFormed 0x00000000#32 = false := by decide
theorem test_wf_reserved_opcode : commandWordWellFormed 0x000000FF#32 = false := by decide
theorem test_wf_top_bit : commandWordWellFormed 0x80000001#32 = false := by decide
theorem test_wf_word : commandWordWellFormed 0x00000044#32 = true := by decide
theorem test_wf_byte_access : (HostAccess.read .byte 0x04).wellFormed = false := by decide
theorem test_wf_half_access : (HostAccess.write .half 0x10 1#32).wellFormed = false := by decide
theorem test_wf_misaligned : (HostAccess.read .word 0x06).wellFormed = false := by decide
theorem test_wf_outside : (HostAccess.read .word 0x100).wellFormed = false := by decide
theorem test_wf_last_word : (HostAccess.read .word 0xFC).wellFormed = true := by decide

/-- A skip helper that answers a skip of 0 breaks R182. -/
theorem test_wf_skip_law : ¬ SkipLaw fun _ target _ => (0, target) := by
  intro h
  exact absurd (h 0 1 1 (by decide) (by decide)).1 (by decide)

/-- A size policy that does not bound its argument breaks R181. -/
theorem test_wf_align_law : ¬ AlignLaw (fun x _ _ _ => x) 2 2048 1 := by
  intro h
  exact absurd (h 0).1 (by decide)

/-- A register address of 9 bits does not fit `SNS_ADDR_BITS`. -/
theorem test_wf_sns_address : ¬ SnsRegs.Fit { snsReg with globalGain := 0x100#16 } 8 := by
  intro h
  have := h 0x100#16 (by decide)
  simp at this

/-! ### Decoding: every row of the opcode table, its word written out (30_encoding.md R73) -/

theorem test_decode_drpRead : decode 0x00000001#32 = .ok .drpRead := by decide
theorem test_decode_drpWrite : decode 0x00000002#32 = .ok .drpWrite := by decide
theorem test_decode_pllSolve : decode 0x00000010#32 = .ok .pllSolve := by decide
theorem test_decode_pllRoundRate : decode 0x00000011#32 = .ok .pllRoundRate := by decide
theorem test_decode_pllFilter : decode 0x00000012#32 = .ok .pllFilter := by decide
theorem test_decode_pllLock : decode 0x00000013#32 = .ok .pllLock := by decide
theorem test_decode_pllFields : decode 0x00000020#32 = .ok .pllFields := by decide
theorem test_decode_pllProgram : decode 0x00000021#32 = .ok .pllProgram := by decide
theorem test_decode_pllSetRate : decode 0x00000022#32 = .ok .pllSetRate := by decide
theorem test_decode_clkEnable : decode 0x00000023#32 = .ok .clkEnable := by decide
theorem test_decode_clkDisable : decode 0x00000024#32 = .ok .clkDisable := by decide
theorem test_decode_clkSetParent : decode 0x00000025#32 = .ok .clkSetParent := by decide
theorem test_decode_clkGetParent : decode 0x00000026#32 = .ok .clkGetParent := by decide
theorem test_decode_pllRecalcRate : decode 0x00000027#32 = .ok .pllRecalcRate := by decide
theorem test_decode_snsWindowSolve : decode 0x00000030#32 = .ok .snsWindowSolve := by decide
theorem test_decode_snsGainCode : decode 0x00000040#32 = .ok .snsGainCode := by decide
theorem test_decode_snsShutterCode : decode 0x00000041#32 = .ok .snsShutterCode := by decide
theorem test_decode_snsSetCtrl : decode 0x00000042#32 = .ok .snsSetCtrl := by decide
theorem test_decode_snsGetFormat : decode 0x00000043#32 = .ok .snsGetFormat := by decide
theorem test_decode_snsSetFormat : decode 0x00000044#32 = .ok .snsSetFormat := by decide

theorem test_decode_zero : decode 0x00000000#32 = .error (.reservedOpcode 0x00#8) := by decide
theorem test_decode_reserved : decode 0x00000014#32 = .error (.reservedOpcode 0x14#8) := by decide
theorem test_decode_nonzero_field : decode 0x00000110#32 = .error (.zeroFieldNotZero 0x110#32) := by decide
theorem test_encode_set_format : encode .snsSetFormat = 0x00000044#32 := by decide
theorem test_table_word : decodeTableWord 32 0x27 = some .pllRecalcRate := by decide
theorem test_table_word_reserved : decodeTableWord 32 0x145 = none := by decide

/-- A fetch word is the next command of the step. -/
theorem test_fetch : step (State.reset.withFetchWord 32 0x44) = exec .snsSetFormat (accept 0x44#32 State.reset) := rfl

/-! ### One step of each command -/

/-- V-DRP-2. -/
theorem test_drp_read :
    outcome 1 .drpRead (running [0x16#32] [ans 0x10000#32, ans 0#32, ans 0#32, ans 0x10000#32, ans 0xabcd#32]) =
      some (.ok, 0#32, [0xabcd#32]) := by
  decide +kernel

/-- V-DRP-9. -/
theorem test_drp_read_io :
    outcome 1 .drpRead (running [0x8#32] [.answer .ioError]) =
      some (.ioError, 0x90000074#32, [0#32]) := by
  decide +kernel

/-- V-DRP-3. -/
theorem test_drp_write :
    writes .drpWrite (running [0x4e#32, 0x100#32, 0x9900#32] [ans 0#32, ans 0#32, ans 0#32, ans 0xffff#32,
      ans 0#32]) =
      some [(0x70#32, 0x304e0000#32), (0x70#32, 0x204e67ff#32)] := by
  decide +kernel

/-- V-DRP-5. -/
theorem test_drp_write_full_mask :
    writes .drpWrite (running [0x18#32, 0x3e8#32, 0xffff#32] [ans 0#32, ans 0#32]) =
      some [(0x70#32, 0x201803e8#32)] := by
  decide +kernel

/-- V-PLL-1. -/
theorem test_pll_solve :
    outcome 4 .pllSolve (running [100000000#32, 148500000#32] []) =
      some (.ok, 0#32, [5#32, 52#32, 7#32, 148571428#32]) := by
  decide +kernel

/-- V-PLL-12. -/
theorem test_pll_solve_largest_parent :
    outcome 4 .pllSolve (running [0xffffffff#32, 300000000#32] []) =
      some (.ok, 0#32, [62#32, 13#32, 3#32, 300185886#32]) := by
  decide +kernel

/-- V-PLL-20. -/
theorem test_pll_round_rate :
    outcome 1 .pllRoundRate (running [10000999#32, 1000000#32] []) =
      some (.ok, 0#32, [4687968#32]) := by
  decide +kernel

/-- V-PLL-8. -/
theorem test_pll_round_rate_infeasible :
    outcome 1 .pllRoundRate (running [9999999#32, 1000000#32] []) =
      some (.noFeasibleSolution, 0#32, [0#32]) := by
  decide +kernel

/-- V-TAB-5, index 11. -/
theorem test_pll_filter :
    outcome 1 .pllFilter (running [0xb#32] []) =
      some (.ok, 0#32, [0x1000890#32]) := by
  decide +kernel

/-- V-TAB-11, index 47. -/
theorem test_pll_filter_default :
    outcome 1 .pllFilter (running [0x2f#32] []) =
      some (.ok, 0#32, [0x8008090#32]) := by
  decide +kernel

/-- V-TAB-8, index 35. -/
theorem test_pll_lock :
    outcome 1 .pllLock (running [0x23#32] []) =
      some (.ok, 0#32, [0x1f1f0113#32]) := by
  decide +kernel

/-- V-TAB-9, index 36. -/
theorem test_pll_lock_default :
    outcome 1 .pllLock (running [0x24#32] []) =
      some (.ok, 0#32, [0x1f1f00fa#32]) := by
  decide +kernel

/-- V-FLD-8. -/
theorem test_pll_fields :
    outcome 4 .pllFields (running [0xffffffff#32] []) =
      some (.ok, 0#32, [0x80000000#32, 0x7fffffff#32, 0x1#32, 0#32]) := by
  decide +kernel

/-- V-FLD-9. -/
theorem test_pll_fields_zero :
    outcome 4 .pllFields (running [0#32] []) =
      some (.invalidRequest, 0#32, [0#32, 0#32, 0#32, 0#32]) := by
  decide +kernel

/-- V-PROG-5. -/
theorem test_pll_program :
    writes .pllProgram (running [80#32, 64#32, 128#32] (List.replicate 50 (ans 0#32))) =
      some [(0x70#32, 0x30080000#32), (0x70#32, 0x20080040#32), (0x70#32, 0x30090000#32),
        (0x70#32, 0x20090000#32), (0x70#32, 0x30140000#32), (0x70#32, 0x20140820#32), (0x70#32, 0x30150000#32),
        (0x70#32, 0x20150000#32), (0x70#32, 0x30160000#32), (0x70#32, 0x20160a28#32), (0x70#32, 0x30180000#32),
        (0x70#32, 0x201800fa#32), (0x70#32, 0x30190000#32), (0x70#32, 0x20197c01#32), (0x70#32, 0x301a0000#32),
        (0x70#32, 0x201a7fe9#32), (0x70#32, 0x304e0000#32), (0x70#32, 0x204e0800#32), (0x70#32, 0x304f0000#32),
        (0x70#32, 0x204f8000#32)] := by
  decide +kernel

/-- V-PROG-6. -/
theorem test_pll_program_range_first :
    outcome 1 .pllProgram (running [0#32, 0x41#32, 0x1#32] []) =
      some (.invalidRequest, 0#32, [0#32]) := by
  decide +kernel

/-- P1, statement 3. -/
theorem test_pll_set_rate :
    writes .pllSetRate (running [100000000#32, 25000000#32] (List.replicate 50 (ans 0#32))) =
      some [(0x70#32, 0x30080000#32), (0x70#32, 0x2008030c#32), (0x70#32, 0x30090000#32),
        (0x70#32, 0x20090000#32), (0x70#32, 0x30140000#32), (0x70#32, 0x201400c3#32), (0x70#32, 0x30150000#32),
        (0x70#32, 0x20150000#32), (0x70#32, 0x30160000#32), (0x70#32, 0x20163001#32), (0x70#32, 0x30180000#32),
        (0x70#32, 0x201803e8#32), (0x70#32, 0x30190000#32), (0x70#32, 0x20194401#32), (0x70#32, 0x301a0000#32),
        (0x70#32, 0x201a47e9#32), (0x70#32, 0x304e0000#32), (0x70#32, 0x204e0100#32), (0x70#32, 0x304f0000#32),
        (0x70#32, 0x204f9000#32)] := by
  decide +kernel

/-- P1, statements 3 and 4. -/
theorem test_pll_set_rate_results :
    outcome 4 .pllSetRate (running [100000000#32, 25000000#32] (List.replicate 50 (ans 0#32))) =
      some (.ok, 0#32, [1#32, 6#32, 24#32, 25000000#32]) := by
  decide +kernel

/-- V-CLK-1. -/
theorem test_clk_enable :
    writes .clkEnable (running [] [ans 0#32]) =
      some [(0x40#32, 0x3#32)] := by
  decide +kernel

/-- V-CLK-1. -/
theorem test_clk_disable :
    writes .clkDisable (running [] [ans 0#32]) =
      some [(0x40#32, 0x1#32)] := by
  decide +kernel

/-- V-CLK-1. -/
theorem test_clk_set_parent :
    writes .clkSetParent (running [0x1#32] [ans 0#32]) =
      some [(0x44#32, 0x1#32)] := by
  decide +kernel

/-- V-CLK-1. -/
theorem test_clk_set_parent_range :
    outcome 1 .clkSetParent (running [0x2#32] []) =
      some (.invalidRequest, 0#32, [0#32]) := by
  decide +kernel

/-- V-CLK-1. -/
theorem test_clk_get_parent :
    outcome 1 .clkGetParent (running [] [ans 0x7#32]) =
      some (.ok, 0#32, [0x7#32]) := by
  decide +kernel

/-- V-RCL-2. -/
theorem test_pll_recalc_rate :
    outcome 1 .pllRecalcRate (running [100000000#32] [ans 0#32, ans 0#32, ans 0xc4#32, ans 0#32, ans 0#32,
      ans 0x2083#32, ans 0#32, ans 0#32, ans 0x69a#32]) =
      some (.ok, 0#32, [148571428#32]) := by
  decide +kernel

/-- V-RCL-4. -/
theorem test_pll_recalc_rate_saturates :
    outcome 1 .pllRecalcRate (running [0xffffffff#32] [ans 0#32, ans 0#32, ans 0x1#32, ans 0#32, ans 0#32,
      ans 0x1#32, ans 0#32, ans 0#32, ans 0xfff#32]) =
      some (.ok, 0#32, [0xffffffff#32]) := by
  decide +kernel

/-- V-WIN-7. -/
theorem test_sns_window_solve :
    outcome 8 .snsWindowSolve (running [700#32, 500#32] []) =
      some (.ok, 0#32, [32#32, 20#32, 1400#32, 1500#32, 2#32, 3#32, 2#32, 3#32]) := by
  decide +kernel

/-- V-WIN-4. -/
theorem test_sns_window_solve_least :
    outcome 8 .snsWindowSolve (running [0#32, 0#32] []) =
      some (.ok, 0#32, [36#32, 20#32, 16#32, 16#32, 8#32, 8#32, 3#32, 3#32]) := by
  decide +kernel

/-- V-GAIN-22. -/
theorem test_sns_gain_code :
    outcome 1 .snsGainCode (running [0x32#32, 0xffffff9c#32, 0x64#32, 0#32] []) =
      some (.ok, 0#32, [0x3860#32]) := by
  decide +kernel

/-- V-GAIN-18. -/
theorem test_sns_gain_code_domain :
    outcome 1 .snsGainCode (running [0x5#32, 0x5#32, 0xa#32, 0x5#32] []) =
      some (.invalidRequest, 0#32, [0#32]) := by
  decide +kernel

/-- V-SHU-9. -/
theorem test_sns_shutter_code :
    outcome 1 .snsShutterCode (running [0#32, 0xfffffffd#32, 0xfffffffb#32, 5#32] []) =
      some (.ok, 0#32, [211#32]) := by
  decide +kernel

/-- V-SHU-11. -/
theorem test_sns_shutter_code_automatic :
    outcome 1 .snsShutterCode (running [1#32, 9#32, 9#32, 9#32] []) =
      some (.ok, 0#32, [1561#32]) := by
  decide +kernel

/-- V-CTRL-3. -/
theorem test_sns_set_ctrl_exposure :
    writes .snsSetCtrl (running [0x2#32, 0x1#32, 0#32, 0#32, 0#32] [ans 0#32, ans 0#32]) =
      some [(0x8#32, 0#32), (0x9#32, 0x619#32)] := by
  decide +kernel

/-- V-CTRL-5. -/
theorem test_sns_set_ctrl_vflip :
    writes .snsSetCtrl (running [0x4#32, 0#32] [ans 0xc000#32, ans 0#32]) =
      some [(0x20#32, 0x4000#32)] := by
  decide +kernel

/-- V-FMT-1. -/
theorem test_sns_get_format :
    outcome 5 .snsGetFormat (running [0#32] []) =
      some (.ok, 0#32, [2048#32, 1536#32, 12295#32, 8#32, 1#32]) := by
  decide +kernel

/-- V-FMT-2. -/
theorem test_sns_get_format_pad :
    outcome 1 .snsGetFormat (running [1#32] []) =
      some (.invalidRequest, 0#32, [0#32]) := by
  decide +kernel

/-- P3. -/
theorem test_sns_set_format :
    writes .snsSetFormat (running [0#32, 640#32, 480#32] [ans 0#32, ans 0#32, ans 0#32, ans 0#32, ans 0#32,
      ans 0#32, ans 0#32, ans 0#32, ans 0#32, ans 0#32, ans 0#32, ans 0#32, ans 0x1#32, ans 0#32]) =
      some [(0x7#32, 0x1#32), (0x5#32, 0x8e#32), (0x6#32, 0x19#32), (0x23#32, 0x22#32), (0x22#32, 0x22#32),
        (0x2#32, 0x24#32), (0x1#32, 0x14#32), (0x4#32, 0x77f#32), (0x3#32, 0x59f#32), (0x8#32, 0#32),
        (0x9#32, 0x5b9#32), (0x7#32, 0#32)] := by
  decide +kernel

/-- P3: what the commit leaves of the record. -/
theorem test_sns_set_format_record :
    (after .snsSetFormat (running [0#32, 640#32, 480#32] (List.replicate 14 (ans 0#32)))).map
      (fun t => (t.rect, skipWord t, t.totalLineTime)) =
      some (⟨36#16, 20#16, 1920#16, 1440#16⟩, 0x00003333#32, 1465#32) := by
  decide +kernel

/-! ### Errors and the host window -/

/-- V-ERR-2: an undecodable command word. -/
theorem test_illegal_command :
    (match step (accept 0x00000110#32 State.reset) with
      | .next t => some (statusWord t)
      | .fault _ => none
      | .refused _ => none) = some 0x00001052#32 := by
  decide +kernel

/-- V-ERR-4: a CMD write and a STATUS read while PLL_LOCK runs. -/
theorem test_overrun :
    (after .pllLock (accept 0x00000013#32 { State.reset with
        inputs := [.hostBusy (.write .word 0x00 0x10#32), .hostBusy (.read .word 0x04)] })).map
      (fun t => (t.cmd, t.overrun, t.hostReads)) = some (0x13#32, true, [⟨0x04, 0x00001305#32⟩]) := by
  decide +kernel

/-- The search's other mode (V-PLL-7, legacy). -/
theorem test_search_legacy :
    (search { psme with mBoundMode := .legacy } 400000 100000).map (fun b => (b.d.toNat, b.m.toNat, b.dout.toNat)) =
      some (2, 4, 8) := by
  decide +kernel

/-- R270: a reset while CLK_ENABLE's only transaction waits. -/
theorem test_reset_in_flight :
    (after .clkEnable (running [] [.issued, .reset])).map (fun t => (t.phase, t.done, t.trace)) =
      some (.idle, false, [⟨.clk, 0x40#32, .write 3#32, .unanswered⟩]) := by
  decide +kernel

/-- The STATUS reads a program made and the transactions it caused, when it ran to its end. -/
def programSeen : HostRun → Option (List Word × List (Word × ChanOp))
  | .finished s => some (s.hostReads.map (·.value), s.trace.map fun x => (x.addr, x.op))
  | .unexpected _ _ _ => none
  | .fault _ => none
  | .refused _ => none

/-- P1, statement 2, with a poll before and a poll while the write waits, and one the command leaves no time for. -/
theorem test_program_waits :
    programSeen (runProgram [.pseudo (.call .clkSetParent [0#32])]
      [[.poll, .issued, .poll, .answer (.value 0#32), .poll]] State.reset) =
      some ([0x00002501#32, 0x00002501#32, 0x00002502#32], [(0x44#32, .write 0#32)]) := by
  decide +kernel

/-- P3's lines 2 and 4, with a primitive statement: an EXPECT that holds. -/
theorem test_program_expects :
    (programSeen (runProgram [.stmt (.arg 1 5#32), .pseudo (.call .snsGetFormat [0#32]), .stmt (.expect 0x30 2048#32)]
      [] State.reset)).isSome = true := by
  decide +kernel

/-- R24, R26, V-ERR-4: an ARG write and a second CMD while PLL_LOCK runs are seen at once, and the command keeps its
latched argument. -/
theorem test_program_running :
    (programSeen (runProgram [.stmt (.cmd .pllLock), .stmt (.arg 0 5#32), .stmt (.expect 0x10 5#32),
      .stmt (.cmd .pllSolve), .stmt (.expect 0x04 0x00001305#32), .stmt .wait, .stmt (.expect 0x04 0x00001306#32),
      .stmt (.expect 0x30 0x060603e8#32)] [] State.reset)).isSome = true := by
  decide +kernel

/-- R26: the same second CMD when the first command has ended. -/
theorem test_program_ended :
    (programSeen (runProgram [.stmt (.cmd .pllLock), .ends [], .stmt (.cmd .pllSolve),
      .stmt (.expect 0x04 0x00001001#32)] [] State.reset)).isSome = true := by
  decide +kernel

/-- An EXPECT that does not hold ends the run. -/
theorem test_program_unexpected :
    (match runProgram [.stmt (.arg 1 5#32), .stmt (.expect 0x14 6#32), .stmt (.cmd .clkEnable)] [] State.reset with
      | .unexpected off v s => some (off, v, s.phase)
      | .finished _ => none
      | .fault _ => none
      | .refused _ => none) = some (0x14, 6#32, .idle) := by
  decide +kernel

/-! ### Witnesses: for each statement with hypotheses, a state and operands that meet them -/

/-- An idle state with these inputs pending. -/
def idleWith (inputs : List Input) : State := { State.reset with inputs := inputs }

/-- A busy wait whose first read is not busy. -/
def quick (v : Word) : Poll := ⟨[], v⟩

theorem quick_ok (v : Word) (h : v.getLsbD 16 = false) : (quick v).Ok :=
  ⟨by show 0 < 10000; decide, fun _ hb => absurd hb (List.not_mem_nil), h⟩

/-- The longest busy wait that does not time out. -/
def slow (v : Word) : Poll := ⟨List.replicate 9999 0x10000#32, v⟩

theorem slow_ok (v : Word) (h : v.getLsbD 16 = false) : (slow v).Ok :=
  ⟨by rw [show (slow v).busy.length = 9999 from List.length_replicate]; decide,
    fun b hb => by rw [List.eq_of_mem_replicate hb]; decide, h⟩

/-- A DRP read that answers `v`. -/
def drpAnswers (v : Word) : SubRead := ⟨quick 0#32, 0#32, quick v⟩

theorem drpAnswers_ok (v : Word) (h : v.getLsbD 16 = false) : (drpAnswers v).Ok :=
  ⟨quick_ok _ (by decide), quick_ok _ h⟩

/-- A masked DRP write over the old value 0. -/
def plainWrite : SubWrite := ⟨quick 0#32, drpAnswers 0#32, 0#32⟩

theorem plainWrite_ok : plainWrite.Ok := ⟨quick_ok _ (by decide), drpAnswers_ok _ (by decide)⟩

/-- The answers to ten of them. -/
def tenWrites : List SubWrite := List.replicate 10 plainWrite

theorem tenWrites_ok : tenWrites.length = 10 ∧ ∀ w ∈ tenWrites, w.Ok :=
  ⟨rfl, fun w hw => by rw [List.eq_of_mem_replicate hw]; exact plainWrite_ok⟩

theorem landed_head (args : List Word) {l rest : List Input} {a : Answer} (h : l = .answer a :: rest) :
    landedState (running args l) = some (running args l) := by
  subst h; rfl

theorem landed_ten (args : List Word) : landedState (running args (programInputsOf tenWrites ++ [])) =
    some (running args (programInputsOf tenWrites ++ [])) := landed_head args rfl

theorem witness_DecodeAcceptsExactlyTheTable : decode 0x00000027#32 = .ok .pllRecalcRate := by decide

theorem witness_RunStepExecutesTheDecodedCommand :
    (∃ (s : State) (i : Instr), s.phase = .run ∧ decode s.cmd = .ok i) ∧
    decode (BitVec.ofNat 32 0x44) = .ok .snsSetFormat :=
  ⟨⟨accept 0x44#32 State.reset, .snsSetFormat, rfl, by decide⟩, by decide⟩

theorem witness_UndecodableWordCompletesIllegalCommand :
    ∃ (s u : State) (e : DecodeError), s.phase = .run ∧ decode s.cmd = .error e ∧ landedState s = some u :=
  ⟨accept 0x45#32 State.reset, _, .reservedOpcode 0x45#8, rfl, by decide, rfl⟩

theorem witness_CmdWriteInIdleIsAccepted :
    ∃ (s : State) (w : Word) (rest : List Input), s.phase = .idle ∧
      s.inputs = .host (.write .word 0x00 w) :: rest :=
  ⟨idleWith [.host (.write .word 0x00 0x10#32)], _, _, rfl, rfl⟩

/-- States that meet the three hypotheses of `WhileRunning`. -/
theorem witness_WhileRunning (a : HostAccess) :
    (∃ (s : State) (rest : List Input), s.inputs = .hostBusy a :: rest) ∧
    (∃ (s : State) (rest : List Input), s.phase = .run ∧ s.inputs = .hostBusy a :: rest) ∧
    (∃ (s : State) (rest : List Input), s.phase = .run ∧ s.inputs = .issued :: .hostBusy a :: rest) :=
  ⟨⟨running [] [.hostBusy a], [], rfl⟩, ⟨running [] [.hostBusy a], [], rfl, rfl⟩,
    ⟨running [] [.issued, .hostBusy a], [], rfl, rfl⟩⟩

theorem witness_CmdWriteWhileRunningOnlySetsOverrun : ∃ (s : State) (w : Word) (rest : List Input), s.phase = .run ∧
    s.inputs = .issued :: .hostBusy (.write .word 0x00 w) :: rest :=
  ⟨running [] [.issued, .hostBusy (.write .word 0x00 0x10#32)], _, _, rfl, rfl⟩

theorem witness_ArgWriteChangesOnlyTheArgument : ∀ n : Fin 8,
    (∃ (s : State) (v : Word) (rest : List Input), s.phase = .idle ∧
      s.inputs = .host (.write .word (0x10 + 4 * n.val) v) :: rest) ∧
    (∃ (s : State) (v : Word) (rest : List Input), s.phase = .run ∧
      s.inputs = .issued :: .hostBusy (.write .word (0x10 + 4 * n.val) v) :: rest) :=
  fun n => ⟨⟨idleWith [.host (.write .word (0x10 + 4 * n.val) 5#32)], _, _, rfl, rfl⟩,
    ⟨running [] [.issued, .hostBusy (.write .word (0x10 + 4 * n.val) 5#32)], _, _, rfl, rfl⟩⟩

theorem witness_StatusWriteClearsOnlyOverrun :
    (∃ (s : State) (w : Word) (rest : List Input), s.phase = .idle ∧
      s.inputs = .host (.write .word 0x04 w) :: rest) ∧
    (∃ (s : State) (w : Word) (rest : List Input), s.phase = .run ∧
      s.inputs = .issued :: .hostBusy (.write .word 0x04 w) :: rest) :=
  ⟨⟨idleWith [.host (.write .word 0x04 4#32)], _, _, rfl, rfl⟩,
    ⟨running [] [.issued, .hostBusy (.write .word 0x04 4#32)], _, _, rfl, rfl⟩⟩

theorem witness_OtherWritesHaveNoEffect : ∀ off ∈ [0x08, 0x0C, 0x30, 0x6C, 0xFC],
    ∃ (s : State) (w : Word) (rest : List Input),
    s.phase = .idle ∧ s.inputs = .host (.write .word off w) :: rest ∧ off < 0x100 ∧ off % 4 = 0 ∧ off ≠ 0x00 ∧
    off ≠ 0x04 ∧ (off < 0x10 ∨ 0x30 ≤ off) := by
  intro off h
  refine ⟨idleWith [.host (.write .word off 1#32)], _, _, rfl, rfl, ?_⟩
  revert off; decide

theorem witness_HostReadAnswersTheWindow_running : ∃ (s t : State) (x : HostRead), exec .pllLock s = .next t ∧
    t.hostReads = s.hostReads ++ [x] ∧ x = ⟨0x4C, 0#32⟩ :=
  ⟨running [] [.hostBusy (.read .word 0x4C)], runCommand (pllLockBody psme) (running [] [.hostBusy (.read .word 0x4C)]),
    _, rfl, by decide +kernel, rfl⟩

theorem witness_HostReadAnswersTheWindow_mapped :
    ∀ x ∈ [(0x00, 0#32), (0x4C, 0#32), (0x60, 0x1111#32), (0x6C, 1#32)],
    ∃ (s : State) (rest : List Input), s.phase = .idle ∧ s.inputs = .host (.read .word x.1) :: rest ∧
      x.1 < 0x100 ∧ x.1 % 4 = 0 ∧
      x ∈ windowTable s := by
  intro x h
  refine ⟨idleWith [.host (.read .word x.1)], _, rfl, rfl, ?_⟩
  show x.1 < 0x100 ∧ x.1 % 4 = 0 ∧ x ∈ windowTable State.reset
  revert x; decide +kernel

theorem witness_HostReadAnswersTheWindow_reserved : ∀ off ∈ [0x0C, 0x70, 0xFC],
    ∃ (s : State) (rest : List Input), s.phase = .idle ∧ s.inputs = .host (.read .word off) :: rest ∧
      off < 0x100 ∧ off % 4 = 0 ∧
      ∀ v, (off, v) ∉ windowTable s := by
  intro off h
  refine ⟨idleWith [.host (.read .word off)], _, rfl, rfl, ?_⟩
  simp only [List.mem_cons, List.not_mem_nil, or_false] at h
  rcases h with rfl | rfl | rfl <;> simp [windowTable]

theorem witness_UndefinedHostAccessStops :
    (∃ (s : State) (rest : List Input), s.phase = .idle ∧ s.inputs = .host (.read .word 0x100) :: rest) ∧
    (∃ (s : State) (rest : List Input), s.phase = .idle ∧ s.inputs = .hostBusy (.write .half 0xFE 0#32) :: rest) ∧
    (∃ (s : State) (rest : List Input), s.phase = .idle ∧ s.inputs = .host (.read .word 0xFE) :: rest) ∧
    (∃ (s : State) (rest : List Input), s.phase = .idle ∧ s.inputs = .host (.read .word 0xFC) :: rest) :=
  ⟨⟨idleWith [.host (.read .word 0x100)], _, rfl, rfl⟩, ⟨idleWith [.hostBusy (.write .half 0xFE 0#32)], _, rfl, rfl⟩,
    ⟨idleWith [.host (.read .word 0xFE)], _, rfl, rfl⟩, ⟨idleWith [.host (.read .word 0xFC)], _, rfl, rfl⟩⟩

theorem witness_LandedAccessesFrame :
    (∃ s u, landedState s = some u ∧ u.inputs = s.inputs) ∧
    (∃ s u, landedState s = some u ∧ s.inputs = .hostBusy (.write .word 0x10 5#32) :: u.inputs) :=
  ⟨⟨_, _, landed_none [], rfl⟩, ⟨running [] [.hostBusy (.write .word 0x10 5#32)], _, rfl, rfl⟩⟩

theorem witness_ResetInputRestoresTheResetState :
    (∃ (s : State) (rest : List Input), s.inputs = .reset :: rest) ∧
    (∃ (s : State) (rest : List Input), s.inputs = .reset :: rest ∧ s.phase = .idle) :=
  ⟨⟨running [] [.reset], _, rfl⟩, ⟨idleWith [.reset], _, rfl, rfl⟩⟩

theorem witness_ResetInFlightAbandonsTheCommand :
    (∃ s u rest, landedState s = some u ∧ u.inputs = .issued :: .reset :: rest) ∧
    (∀ after ∈ [[Input.issued, .reset], [.reset]], ∃ s u v rest, landedState s = some u ∧
      (u.latch.get 0).toNat < 0x1000 ∧ v.getLsbD 16 = false ∧ u.inputs = .answer (.value v) :: after ++ rest) :=
  ⟨⟨running [] [.issued, .reset], _, [], rfl, rfl⟩, fun after _ =>
    ⟨running [0xFFF#32] (ans 0#32 :: after ++ []), running [0xFFF#32] (ans 0#32 :: after ++ []), 0#32, [],
      landed_answer [0xFFF#32] _ _, show ((running [0xFFF#32] []).latch.get 0).toNat < 0x1000 by decide, by decide, rfl⟩⟩

theorem witness_DrpReadReturnsTheFirstIdleStatus :
    (∃ s u, landedState s = some u ∧ 0x1000 ≤ (u.latch.get 0).toNat) ∧
    (∃ s u, ∃ r : SubRead, ∃ rest, landedState s = some u ∧ (u.latch.get 0).toNat < 0x1000 ∧ r.Ok ∧
      u.inputs = r.inputs ++ rest) :=
  ⟨⟨_, _, landed_none [0x1000#32], by decide⟩,
    ⟨_, _, ⟨quick 0#32, 0#32, slow 0xABCD#32⟩, [], landed_head [0xFFF#32] (a := .value 0#32) rfl,
      show ((running [0xFFF#32] []).latch.get 0).toNat < 0x1000 by decide,
      ⟨quick_ok _ (by decide), slow_ok _ (by decide)⟩, rfl⟩⟩

theorem witness_DrpWriteWithFullMaskMakesNoRead :
    (∀ args ∈ [[0x1000#32], [0#32, 0x10000#32], [0#32, 0#32, 0x10000#32]], ∃ s u, landedState s = some u ∧
      u = running args [] ∧
      (0x1000 ≤ (u.latch.get 0).toNat ∨ 0x10000 ≤ (u.latch.get 1).toNat ∨ 0x10000 ≤ (u.latch.get 2).toNat)) ∧
    (∃ s u, ∃ p : Poll, ∃ ack rest, landedState s = some u ∧ (u.latch.get 0).toNat < 0x1000 ∧
      (u.latch.get 1).toNat < 0x10000 ∧ u.latch.get 2 = 0xFFFF#32 ∧ p.Ok ∧
      u.inputs = p.inputs ++ .answer (.value ack) :: rest) := by
  refine ⟨fun args h => ⟨_, _, landed_none args, rfl, ?_⟩,
    ⟨running [0xFFF#32, 0xFFFF#32, 0xFFFF#32] ((quick 0#32).inputs ++ [ans 0#32]), _, quick 0#32, 0#32, [], rfl, by decide,
      by decide, by decide, quick_ok _ (by decide), rfl⟩⟩
  revert args; decide

theorem witness_DrpWriteUpdatesTheMaskedBits : ∀ args ∈ [[0xFFF#32, 0xFFFF#32, 0xFFFE#32], [0#32, 0#32, 0#32]],
    ∃ s u, ∃ w : SubWrite, ∃ rest, landedState s = some u ∧ (u.latch.get 0).toNat < 0x1000 ∧
      (u.latch.get 1).toNat < 0x10000 ∧ (u.latch.get 2).toNat < 0xFFFF ∧ w.Ok ∧ u.inputs = w.inputs ++ rest := by
  intro args h
  refine ⟨running args (plainWrite.inputs ++ []), running args (plainWrite.inputs ++ []), plainWrite, [], rfl, ?_⟩
  have k : (((running args []).latch.get 0).toNat < 0x1000 ∧ ((running args []).latch.get 1).toNat < 0x10000 ∧
      ((running args []).latch.get 2).toNat < 0xFFFF) := by revert args; decide
  exact ⟨k.1, k.2.1, k.2.2, plainWrite_ok, rfl⟩

/-- Ten thousand busy answers. -/
def busyAnswers : List Word := List.replicate 10000 0x10000#32

theorem busyAnswers_busy : ∀ b ∈ busyAnswers, b.getLsbD 16 = true :=
  fun b hb => by rw [List.eq_of_mem_replicate hb]; decide

theorem busyAnswers_length : busyAnswers.length = 10000 := List.length_replicate

theorem landed_busy (args : List Word) : landedState (running args (busyAnswers.map (fun v => .answer (.value v)) ++ [])) =
    some (running args (busyAnswers.map (fun v => .answer (.value v)) ++ [])) := by
  rw [show busyAnswers = 0x10000#32 :: List.replicate 9999 0x10000#32 from List.replicate_succ]
  exact landed_answer _ _ _

/-- Each command's first busy wait, at the bounds of its operands. -/
theorem witness_BusyWaitTimesOutAfterTheBudget : busyAnswers.length = 10000 ∧
    (∀ b ∈ busyAnswers, b.getLsbD 16 = true) ∧
    ∀ args ∈ [[0xFFF#32, 0xFFFF#32, 0xFFFF#32], [1#32, 1#32, 1#32], [80#32, 64#32, 128#32], [100000000#32, 25000000#32]],
    ∃ s u rest, landedState s = some u ∧ u.latch = (running args []).latch ∧
      u.inputs = busyAnswers.map (fun v => .answer (.value v)) ++ rest :=
  ⟨busyAnswers_length, busyAnswers_busy, fun args _ => ⟨_, _, [], landed_busy args, rfl, rfl⟩⟩

/-- The operands of those states meet the bounds: DRP_READ and DRP_WRITE, PLL_PROGRAM at both ends, PLL_SET_RATE. -/
theorem witness_BusyWaitTimesOutAfterTheBudget_operands :
    (∀ i : Fin 8, i.val < 3 → ((running [0xFFF#32, 0xFFFF#32, 0xFFFF#32] []).latch.get i).toNat < 0x10000) ∧
    ((running [0xFFF#32] []).latch.get 0).toNat < 0x1000 ∧
    (∀ args ∈ [[1#32, 1#32, 1#32], [80#32, 64#32, 128#32]], let a := fun i => ((running args []).latch.get i).toNat
      1 ≤ a 0 ∧ a 0 ≤ 80 ∧ 1 ≤ a 1 ∧ a 1 ≤ 64 ∧ 1 ≤ a 2 ∧ a 2 ≤ 128) ∧
    (running [100000000#32, 25000000#32] []).latch.get 0 = 100000000#32 ∧
    (running [100000000#32, 25000000#32] []).latch.get 1 = 25000000#32 ∧
    (search psme (100000000 / 1000) (25000000 / 1000)).isSome = true :=
  ⟨by decide, by decide, by decide, by decide, by decide, by decide +kernel⟩

/-- The second busy wait of DRP_READ, after the longest first one. -/
theorem witness_BusyWaitTimesOutAfterTheBudget_second : ∃ s u, ∃ p : Poll, ∃ ack rest, landedState s = some u ∧
    (u.latch.get 0).toNat < 0x1000 ∧ p.Ok ∧
    u.inputs = p.inputs ++ .answer (.value ack) :: busyAnswers.map (fun v => .answer (.value v)) ++ rest :=
  ⟨running [0xFFF#32] ((slow 0#32).inputs ++ ans 0#32 :: busyAnswers.map ans ++ []), _, slow 0#32, 0#32, [],
    landed_head [0xFFF#32] (a := .value 0x10000#32) rfl,
    show ((running [0xFFF#32] []).latch.get 0).toNat < 0x1000 by decide, slow_ok _ (by decide), rfl⟩

theorem witness_SearchReturnsTheFirstBestFeasiblePair :
    search psme 100000 25000 = some ⟨0, 1, 6, 24⟩ ∧ Feasible 100000 1 6 ∧ Feasible 100000 2 12 :=
  ⟨by decide +kernel, by unfold Feasible; decide, by unfold Feasible; decide⟩

/-- Both sides of the boundary at 10 MHz. -/
theorem witness_SearchFailsExactlyWhenNothingIsFeasible :
    search psme (9999999 / 1000) 1000 = none ∧ (search psme (10000000 / 1000) 1000).isSome = true :=
  ⟨by decide +kernel, by decide +kernel⟩

theorem witness_AchievedRateFitsItsRegister :
    search psme (4294967295 / 1000) 300000 = some ⟨185, 62, 13, 3⟩ := by decide +kernel

/-- Operands for each clause of the three rate commands: a zero parent, a target below 1000, an infeasible and a feasible
request. -/
theorem witness_PllSolveReportsTheSearch :
    landedState (running [0#32, 1000#32] []) = some (running [0#32, 1000#32] []) ∧
    landedState (running [1#32, 999#32] []) = some (running [1#32, 999#32] []) ∧
    landedState (running [9999999#32, 1000#32] []) = some (running [9999999#32, 1000#32] []) ∧
    search psme (9999999 / 1000) (1000 / 1000) = none ∧
    landedState (running [100000000#32, 25000000#32] []) = some (running [100000000#32, 25000000#32] []) ∧
    search psme (100000000 / 1000) (25000000 / 1000) = some ⟨0, 1, 6, 24⟩ :=
  ⟨rfl, rfl, rfl, by decide +kernel, rfl, by decide +kernel⟩

theorem witness_PllRoundRateReportsTheAchievedRate :
    landedState (running [0#32, 1000#32] []) = some (running [0#32, 1000#32] []) ∧
    landedState (running [10000000#32, 1000#32] []) = some (running [10000000#32, 1000#32] []) ∧
    search psme (10000000 / 1000) (1000 / 1000) = some ⟨4686, 1, 60, 128⟩ :=
  ⟨rfl, rfl, by decide +kernel⟩

theorem witness_PllFilterLooksUpItsBand : ∃ s u, landedState s = some u := ⟨_, _, landed_none [46#32]⟩

theorem witness_PllLockLooksUpItsEntry :
    (∃ s u, landedState s = some u ∧ psme.lockTable[(u.latch.get 0).toNat]? = some 0x1f1f0113#32) ∧
    (∃ s u, landedState s = some u ∧ 36 ≤ (u.latch.get 0).toNat) :=
  ⟨⟨_, _, landed_none [35#32], by decide⟩, ⟨_, _, landed_none [36#32], by decide⟩⟩

theorem witness_PllFieldsReportsTheFields :
    (∃ s u, landedState s = some u ∧ (u.latch.get 0).toNat = 0) ∧
    (∃ s u, landedState s = some u ∧ (u.latch.get 0).toNat = 1) :=
  ⟨⟨_, _, landed_none [0#32], by decide⟩, ⟨_, _, landed_none [1#32], by decide⟩⟩

theorem witness_PllProgramMakesTheTenSubWrites :
    (∀ args ∈ [[81#32, 1#32, 1#32], [1#32, 65#32, 1#32], [1#32, 1#32, 129#32]], ∃ s u, landedState s = some u ∧
      u = running args [] ∧
      (80 < (u.latch.get 0).toNat ∨ 64 < (u.latch.get 1).toNat ∨ 128 < (u.latch.get 2).toNat)) ∧
    (∀ args ∈ [[0#32, 64#32, 128#32], [80#32, 0#32, 128#32], [80#32, 64#32, 0#32]], ∃ s u, landedState s = some u ∧
      u = running args [] ∧ (u.latch.get 0).toNat ≤ 80 ∧ (u.latch.get 1).toNat ≤ 64 ∧ (u.latch.get 2).toNat ≤ 128 ∧
      ((u.latch.get 0).toNat = 0 ∨ (u.latch.get 1).toNat = 0 ∨ (u.latch.get 2).toNat = 0)) ∧
    (∀ args ∈ [[80#32, 64#32, 128#32], [1#32, 1#32, 1#32]], ∃ s u, landedState s = some u ∧
      u.latch = (running args []).latch ∧ u.inputs = programInputsOf tenWrites ++ [] ∧
      1 ≤ (u.latch.get 0).toNat ∧ (u.latch.get 0).toNat ≤ 80 ∧ 1 ≤ (u.latch.get 1).toNat ∧ (u.latch.get 1).toNat ≤ 64 ∧
      1 ≤ (u.latch.get 2).toNat ∧ (u.latch.get 2).toNat ≤ 128) := by
  refine ⟨fun args h => ⟨_, _, landed_none args, rfl, ?_⟩, fun args h => ⟨_, _, landed_none args, rfl, ?_⟩,
    fun args h => ⟨_, _, landed_ten args, rfl, rfl, ?_⟩⟩
  · revert args; decide
  · revert args; decide
  · show 1 ≤ ((running args []).latch.get 0).toNat ∧ ((running args []).latch.get 0).toNat ≤ 80 ∧
      1 ≤ ((running args []).latch.get 1).toNat ∧ ((running args []).latch.get 1).toNat ≤ 64 ∧
      1 ≤ ((running args []).latch.get 2).toNat ∧ ((running args []).latch.get 2).toNat ≤ 128
    revert args; decide

theorem witness_PllSetRateSolvesAndPrograms :
    landedState (running [1#32, 999#32] []) = some (running [1#32, 999#32] []) ∧
    (∃ s u, landedState s = some u ∧ u.latch = (running [100000000#32, 25000000#32] []).latch ∧
      u.inputs = programInputsOf tenWrites ++ [] ∧
      search psme (100000000 / 1000) (25000000 / 1000) = some ⟨0, 1, 6, 24⟩) :=
  ⟨rfl, ⟨_, _, landed_ten [100000000#32, 25000000#32], rfl, rfl, by decide +kernel⟩⟩

theorem witness_ClkEnableAndDisableWriteResetControl :
    (∃ s u ack rest, landedState s = some u ∧ u.inputs = .answer (.value ack) :: rest) ∧
    (∃ s u rest, landedState s = some u ∧ u.inputs = .answer .ioError :: rest) :=
  ⟨⟨_, _, 0#32, [], landed_answer [] (.value 0#32) [], rfl⟩, ⟨_, _, [], landed_answer [] .ioError [], rfl⟩⟩

theorem witness_ClkParentCommandsAccessTheSelect :
    (∃ s u, landedState s = some u ∧ 2 ≤ (u.latch.get 0).toNat) ∧
    (∃ s u ack rest, landedState s = some u ∧ (u.latch.get 0).toNat < 2 ∧ u.inputs = .answer (.value ack) :: rest) ∧
    (∃ s u rest, landedState s = some u ∧ u.inputs = .answer .ioError :: rest ∧ (u.latch.get 0).toNat < 2) :=
  ⟨⟨_, _, landed_none [2#32], by decide⟩, ⟨_, _, 7#32, [], landed_answer [1#32] (.value 7#32) [], by decide, rfl⟩,
    ⟨_, _, [], landed_answer [1#32] .ioError [], rfl, by decide⟩⟩

theorem witness_PllRecalcRateReadsTheThreeDividers : ∃ s u, ∃ ro rd rm : SubRead, ∃ rest, landedState s = some u ∧
    ro.Ok ∧ rd.Ok ∧ rm.Ok ∧ u.inputs = ro.inputs ++ rd.inputs ++ rm.inputs ++ rest :=
  ⟨running [100000000#32] ((drpAnswers 0x30C#32).inputs ++ (drpAnswers 0x3001#32).inputs ++ (drpAnswers 0xC3#32).inputs ++ []),
    _, drpAnswers 0x30C#32, drpAnswers 0x3001#32, drpAnswers 0xC3#32, [], rfl, drpAnswers_ok _ (by decide),
    drpAnswers_ok _ (by decide), drpAnswers_ok _ (by decide), rfl⟩

/-- A lawful configuration with the skip factor `k`. -/
def plainConfig (k : Nat) : Config :=
  { psme with skipFn := fun _ target _ => (k, target), alignSize := fun _ _ _ _ => 2 }

theorem regs_fit : snsReg.Fit 8 := by
  intro a ha
  simp only [snsReg, List.mem_cons, List.not_mem_nil, or_false] at ha
  rcases ha with rfl | rfl | rfl | rfl | rfl | rfl | rfl | rfl | rfl | rfl | rfl | rfl | rfl <;> decide

theorem two_le : (2 + 2 ^ 1 - 1) / 2 ^ 1 * 2 ^ 1 ≤ 2 ∧ 2 ≤ 2048 / 2 ^ 1 * 2 ^ 1 ∧ 2 ≤ 1536 / 2 ^ 1 * 2 ^ 1 ∧
    1 ≤ (2 + 2 ^ 1 - 1) / 2 ^ 1 * 2 ^ 1 := by decide

theorem plainConfig_lawful (k : Nat) (h₁ : 1 ≤ k) (h₂ : k ≤ 8) : (plainConfig k).Lawful := by
  constructor
  · exact fun _ _ _ h h' => ⟨h₁, h₂, h, h'⟩
  · exact fun _ => ⟨two_le.1, two_le.2.1⟩
  · exact fun _ => ⟨two_le.1, two_le.2.2.1⟩
  · exact two_le.2.2.2
  · exact two_le.2.2.2
  · exact two_le.1.trans two_le.2.1
  · exact two_le.1.trans two_le.2.2.1
  · exact (by decide : 2048 < 2 ^ 16)
  · exact (by decide : 1536 < 2 ^ 16)
  · exact (by decide : (32 + 5) / 6 * 6 < 2 ^ 16)
  · exact regs_fit

/-- Each binning factor, and a left below the minimum column skip. -/
theorem witness_SolvedWindowIsAligned :
    ((plainConfig 1).Lawful ∧ (windowSolve (plainConfig 1) 0 0 State.reset.rect).xbin = 1) ∧
    ((plainConfig 2).Lawful ∧ (windowSolve (plainConfig 2) 0 0 State.reset.rect).xbin = 2) ∧
    ((plainConfig 3).Lawful ∧ (windowSolve (plainConfig 3) 0 0 ⟨10#16, 0#16, 2#16, 2#16⟩).xbin = 3 ∧
      (10#16).toNat < (plainConfig 3).columnSkip) :=
  ⟨⟨plainConfig_lawful 1 (by decide) (by decide), by decide⟩, ⟨plainConfig_lawful 2 (by decide) (by decide), by decide⟩,
    ⟨plainConfig_lawful 3 (by decide) (by decide), by decide, by decide⟩⟩

theorem witness_SnsWindowSolveReportsTheWindow : ∃ s u, landedState s = some u := ⟨_, _, landed_none [640#32, 480#32]⟩

theorem witness_GainCodeProperties : GainDomain 64 0 127 64 ∧ GainDomain 65 0 127 64 ∧ GainDomain 127 0 127 64 := by
  unfold GainDomain; decide

theorem witness_SnsGainCodeReportsTheCode :
    (∃ s u, landedState s = some u ∧ GainDomain (u.latch.get 0).toInt (u.latch.get 1).toInt (u.latch.get 2).toInt
      (u.latch.get 3).toInt) ∧
    (∃ s u, landedState s = some u ∧ ¬ GainDomain (u.latch.get 0).toInt (u.latch.get 1).toInt (u.latch.get 2).toInt
      (u.latch.get 3).toInt) :=
  ⟨⟨_, _, landed_none [0xFFFFFFF6#32, 0xFFFFFF9C#32, 100#32, 0#32], by unfold GainDomain; decide⟩,
    ⟨_, _, landed_none [6#32, 5#32, 6#32, 5#32], by unfold GainDomain; decide⟩⟩

theorem witness_SnsShutterCodeReportsTheShutter :
    (∃ s u, landedState s = some u ∧ 1 < (u.latch.get 0).toNat) ∧
    (∃ s u, landedState s = some u ∧ u.latch.get 0 = 0#32 ∧
      ManualDomain (u.latch.get 1).toInt (u.latch.get 2).toInt (u.latch.get 3).toInt) ∧
    (∃ s u, landedState s = some u ∧ u.latch.get 0 = 0#32 ∧
      ¬ ManualDomain (u.latch.get 1).toInt (u.latch.get 2).toInt (u.latch.get 3).toInt) ∧
    (∃ s u, landedState s = some u ∧ u.latch.get 0 = 1#32) :=
  ⟨⟨_, _, landed_none [2#32], by decide⟩, ⟨_, _, landed_none [0#32, 1#32, 0#32, 1#32], by decide, by unfold ManualDomain; decide⟩,
    ⟨_, _, landed_none [0#32, 5#32, 5#32, 5#32], by decide, by unfold ManualDomain; decide⟩,
    ⟨_, _, landed_none [1#32], by decide⟩⟩

theorem witness_SetCtrlGainWritesTheCode : ∀ a : Answer, ∃ s u rest, landedState s = some u ∧ u.inputs = .answer a :: rest ∧
    u.latch.get 0 = 1#32 ∧ GainDomain (u.latch.get 1).toInt (u.latch.get 2).toInt (u.latch.get 3).toInt
      (u.latch.get 4).toInt := by
  intro a
  refine ⟨_, _, [], landed_answer [1#32, 64#32, 0#32, 127#32, 64#32] a [], rfl, ?_⟩
  show (running [1#32, 64#32, 0#32, 127#32, 64#32] []).latch.get 0 = 1#32 ∧
    GainDomain ((running [1#32, 64#32, 0#32, 127#32, 64#32] []).latch.get 1).toInt
      ((running [1#32, 64#32, 0#32, 127#32, 64#32] []).latch.get 2).toInt
      ((running [1#32, 64#32, 0#32, 127#32, 64#32] []).latch.get 3).toInt
      ((running [1#32, 64#32, 0#32, 127#32, 64#32] []).latch.get 4).toInt
  unfold GainDomain; decide

theorem witness_SetCtrlGainWritesTheCode_rejects : ∃ s u, landedState s = some u ∧ u.latch.get 0 = 1#32 ∧
    ¬ GainDomain (u.latch.get 1).toInt (u.latch.get 2).toInt (u.latch.get 3).toInt (u.latch.get 4).toInt :=
  ⟨_, _, landed_none [1#32, 6#32, 5#32, 6#32, 5#32], by decide, by unfold GainDomain; decide⟩

theorem witness_SetCtrlExposureWritesTheShutter :
    (∃ s u a b rest, landedState s = some u ∧ u.latch.get 0 = 2#32 ∧ u.latch.get 1 = 0#32 ∧
      ManualDomain (u.latch.get 2).toInt (u.latch.get 3).toInt (u.latch.get 4).toInt ∧
      u.inputs = .answer (.value a) :: .answer (.value b) :: rest) ∧
    (∃ s u a rest, landedState s = some u ∧ u.latch.get 0 = 2#32 ∧ u.latch.get 1 = 0#32 ∧
      ManualDomain (u.latch.get 2).toInt (u.latch.get 3).toInt (u.latch.get 4).toInt ∧
      u.inputs = .answer (.value a) :: .answer .ioError :: rest) ∧
    (∃ s u a b rest, landedState s = some u ∧ u.latch.get 0 = 2#32 ∧ u.latch.get 1 = 1#32 ∧
      u.inputs = .answer (.value a) :: .answer (.value b) :: rest) :=
  ⟨⟨_, _, 0#32, 0#32, [], landed_answer [2#32, 0#32, 255#32, 1#32, 255#32] (.value 0#32) [ans 0#32], by decide, by decide,
      by unfold ManualDomain; decide, rfl⟩,
    ⟨_, _, 0#32, [], landed_answer [2#32, 0#32, 128#32, 1#32, 255#32] (.value 0#32) [.answer .ioError], by decide, by decide,
      by unfold ManualDomain; decide, rfl⟩,
    ⟨_, _, 0#32, 0#32, [], landed_answer [2#32, 1#32] (.value 0#32) [ans 0#32], by decide, by decide, rfl⟩⟩

theorem witness_SetCtrlFlipUpdatesOneBit : ∀ args ∈ [[3#32, 1#32], [4#32, 0#32]], ∃ s u old ack rest,
    landedState s = some u ∧ u = running args [ans old, ans ack] ∧
    (u.latch.get 0 = 3#32 ∨ u.latch.get 0 = 4#32) ∧ (u.latch.get 1).toNat ≤ 1 ∧
    u.inputs = .answer (.value old) :: .answer (.value ack) :: rest := by
  intro args h
  refine ⟨_, _, 0xC000#32, 0#32, [], landed_answer args (.value 0xC000#32) [ans 0#32], rfl, ?_, ?_, rfl⟩
  · show (running args []).latch.get 0 = 3#32 ∨ (running args []).latch.get 0 = 4#32
    revert args; decide
  · show ((running args []).latch.get 1).toNat ≤ 1
    revert args; decide

/-- One list of operands for each way to be rejected. -/
theorem witness_SetCtrlRejectsBadOperands :
    ∀ args ∈ [[0#32], [5#32], [1#32, 5#32, 5#32, 10#32, 5#32], [2#32, 2#32], [3#32, 2#32], [4#32, 2#32],
      [2#32, 0#32, 5#32, 5#32, 5#32]], ∃ s u, landedState s = some u ∧ u = running args [] ∧
    (((u.latch.get 0).toNat = 0 ∨ 4 < (u.latch.get 0).toNat) ∨
      ((u.latch.get 0).toNat = 1 ∧ ¬ GainDomain (u.latch.get 1).toInt (u.latch.get 2).toInt (u.latch.get 3).toInt
        (u.latch.get 4).toInt) ∨
      (2 ≤ (u.latch.get 0).toNat ∧ (u.latch.get 0).toNat ≤ 4 ∧ 1 < (u.latch.get 1).toNat) ∨
      ((u.latch.get 0).toNat = 2 ∧ u.latch.get 1 = 0#32 ∧
        ¬ ManualDomain (u.latch.get 2).toInt (u.latch.get 3).toInt (u.latch.get 4).toInt)) := by
  intro args h
  refine ⟨_, _, landed_none args, rfl, ?_⟩
  unfold GainDomain ManualDomain
  revert args; decide

theorem witness_SnsGetFormatReportsTheEffectiveSize :
    (∃ s u, landedState s = some u ∧ u.latch.get 0 ≠ 0#32) ∧ (∃ s u, landedState s = some u ∧ u.latch.get 0 = 0#32) :=
  ⟨⟨_, _, landed_none [1#32], by decide⟩, ⟨_, _, landed_none [0#32], by decide⟩⟩

/-- The state of the format witnesses: 640 by 480 with this S.Y_SKIP_TOP. -/
def formatState (pad : Word) (skipTop : Half) (inputs : List Input) : State :=
  { running [pad, 640#32, 480#32] inputs with ySkipTop := skipTop }

/-- A nonzero pad; a height one too large; the largest height that fits, with both optional parts of the sequence. -/
theorem witness_SnsSetFormatCommitsTheWindow :
    (landedState (formatState 1#32 0#16 []) = some (formatState 1#32 0#16 [])) ∧
    (landedState (formatState 0#32 64097#16 []) = some (formatState 0#32 64097#16 []) ∧
      65536 < (windowSolve psme 640 480 State.reset.rect).height + (64097#16).toNat) ∧
    (∃ (s u : State) (old0 a0 : Word) (acks : List Word) (old1 a1 : Word), landedState s = some u ∧ u.latch.get 0 = 0#32 ∧
      (windowSolve psme 640 480 u.rect).height + u.ySkipTop.toNat ≤ 65536 ∧
      (windowSolve psme 640 480 u.rect).xskip ≠ u.xskip.toNat ∧ u.aeMode = true ∧ acks.length = 6 + 2 + 2 ∧
      u.inputs = [.answer (.value old0), .answer (.value a0)] ++ acks.map (fun v => .answer (.value v)) ++
        [.answer (.value old1), .answer (.value a1)] ++ []) :=
  ⟨rfl, ⟨rfl, by decide +kernel⟩,
    ⟨formatState 0#32 64096#16 (List.replicate 14 (ans 0#32)), _, 0#32, 0#32, List.replicate 10 0#32, 0#32, 0#32, rfl,
      by decide, by decide +kernel, by decide +kernel, rfl, rfl, rfl⟩⟩

/-- A successful commit in automatic mode. -/
theorem witness_AutoExposureAfterEveryCommit : ∃ s t, exec .snsSetFormat s = .next t ∧ t.done = true ∧ t.err = .ok ∧
    s.aeMode = true :=
  ⟨running [0#32, 640#32, 480#32] (List.replicate 14 (ans 0#32)),
    runCommand (snsSetFormatBody psme) (running [0#32, 640#32, 480#32] (List.replicate 14 (ans 0#32))), rfl,
    by decide +kernel, by decide +kernel, rfl⟩

theorem witness_ErrorLeavesResultsAndRecord : ∃ (i : Instr) (s t : State), exec i s = .next t ∧ t.err ≠ .ok :=
  ⟨.clkGetParent, running [] [.answer .ioError],
    runCommand ((memRead .clk clkSel).bind fun v => stageRes 0 v) (running [] [.answer .ioError]), rfl, by decide +kernel⟩

theorem witness_RejectionsMakeNoTransaction :
    (∃ (i : Instr) (s t : State), exec i s = .next t ∧ t.err = .invalidRequest) ∧
    (∃ (i : Instr) (s t : State), exec i s = .next t ∧ t.err = .noFeasibleSolution) :=
  ⟨⟨.clkSetParent, running [2#32] [],
    runCommand clkSetParentBody (running [2#32] []), rfl, by decide +kernel⟩,
    ⟨.pllSetRate, running [9999999#32, 1000#32] [],
    runCommand (pllSetRateBody psme) (running [9999999#32, 1000#32] []), rfl, by decide +kernel⟩⟩

theorem exec_drpRead (s : State) : exec .drpRead s = .next (runCommand drpReadBody s) := rfl

/-- A DRP read whose busy wait never ends times out after its 10000 reads. -/
theorem busyRead_times_out (bs : List Word) (hn : bs.length = 10000) (hb : ∀ b ∈ bs, b.getLsbD 16 = true) :
    let t := runCommand drpReadBody (running [8#32] (bs.map (fun v => .answer (.value v)) ++ []))
    t.err = .timeout ∧ t.trace = bs.map fun v => ⟨.clk, 0x74#32, .read, .value v⟩ := by
  obtain ⟨b, bs', rfl⟩ := List.exists_cons_of_length_eq_add_one hn
  have hk := busyWait_timeout (b :: bs') hn hb
    (s := running [8#32] ((b :: bs').map (fun v => .answer (.value v)) ++ [])) (rest := []) rfl
  have h8 : ((running [8#32] ((b :: bs').map (fun v => .answer (.value v)) ++ [])).latch.get 0).toNat < 0x1000 := by
    show ((running [8#32] []).latch.get 0).toNat < 0x1000; decide
  have hl : landedState (running [8#32] ((b :: bs').map (fun v => .answer (.value v)) ++ [])) = some _ :=
    landed_head [8#32] (a := .value b) rfl
  rw [drpReadBody, runCommand_raise hl ((bind_of_ok (argIdx12_of_lt h8)).trans (bind_of_raise (andThen_of_raise hk)))]
  exact ⟨rfl, rfl⟩

theorem witness_FailingTransactionIsLastAndRecorded :
    (∃ (i : Instr) (s t : State), exec i s = .next t ∧ t.err = .ioError) ∧
    (∃ (i : Instr) (s t : State), exec i s = .next t ∧ t.err = .timeout) :=
  ⟨⟨.clkEnable, running [] [.answer .ioError],
    runCommand (memWrite .clk resetCtrl 0x00000003#32) (running [] [.answer .ioError]), rfl, by decide +kernel⟩,
    ⟨.drpRead, _, _, exec_drpRead _, (busyRead_times_out busyAnswers busyAnswers_length busyAnswers_busy).1⟩⟩

/-- The two hypotheses on the transactions made: a failing one (the write half of VFLIP), and 10000 busy reads in a
row. -/
theorem witness_FailingTransactionIsLastAndRecorded_converse :
    (∃ (i : Instr) (s t : State) (made : List Transaction) (x : Transaction), exec i s = .next t ∧
      t.trace = s.trace ++ made ∧ x ∈ made ∧ x.reply = .ioError) ∧
    (∃ (i : Instr) (s t : State) (before : List Transaction) (bs : List Word) (later : List Transaction),
      exec i s = .next t ∧ bs.length = 10000 ∧ (∀ b ∈ bs, b.getLsbD 16 = true) ∧
      t.trace = s.trace ++ before ++ (bs.map fun v => ⟨.clk, 0x74#32, .read, .value v⟩) ++ later) :=
  ⟨⟨.snsSetCtrl, running [4#32, 1#32] [ans 0#32, .answer .ioError],
    runCommand (snsSetCtrlBody psme) (running [4#32, 1#32] [ans 0#32, .answer .ioError]),
    [snsReadOf 0x20#32 0#16, ⟨.sns, 0x20#32, .write 0x8000#32, .ioError⟩], _, rfl, by decide +kernel,
    List.mem_cons_of_mem _ (List.mem_singleton_self _), rfl⟩,
    ⟨.drpRead, _, _, [], busyAnswers, [], exec_drpRead _, busyAnswers_length, busyAnswers_busy,
      (busyRead_times_out busyAnswers busyAnswers_length busyAnswers_busy).2.trans (List.append_nil _).symm⟩⟩

/-- Both ends of a command: completed, and abandoned by a reset that lands while its transaction waits, the inputs
after it kept. -/
theorem witness_EveryCommandEndsIdle :
    (∃ t, exec .clkEnable (running [] [ans 0#32]) = .next t ∧ t.done = true) ∧
    (∃ t, exec .clkEnable (running [] [.issued, .reset, ans 0#32]) = .next t ∧ t.done = false ∧
      t.inputs = [ans 0#32]) :=
  ⟨⟨runCommand (memWrite .clk resetCtrl 0x00000003#32) (running [] [ans 0#32]), rfl, by decide +kernel⟩,
    ⟨runCommand (memWrite .clk resetCtrl 0x00000003#32) (running [] [.issued, .reset, ans 0#32]), rfl,
      by decide +kernel, by decide +kernel⟩⟩

theorem witness_CommandsReachOnlyTheirPort :
    (∃ (i : Instr) (s t : State), exec i s = .next t ∧ portOf i = some .sns) ∧
    (∃ (i : Instr) (s t : State), exec i s = .next t ∧ portOf i = none) :=
  ⟨⟨.snsSetCtrl, running [3#32, 1#32] [ans 0#32, ans 0#32],
    runCommand (snsSetCtrlBody psme) (running [3#32, 1#32] [ans 0#32, ans 0#32]), rfl, rfl⟩, ⟨.pllLock, running [] [],
    runCommand (pllLockBody psme) (running [] []), rfl, rfl⟩⟩

theorem witness_CommandsReachOnlyTheirPort_pure : ∃ (i : Instr) (s s' t t' : State), portOf i = none ∧
    s'.latch = s.latch ∧ SamePersistent s s' ∧ s'.res = s.res ∧ exec i s = .next t ∧ exec i s' = .next t' ∧
    t.done = true ∧ t'.done = true :=
  ⟨.pllLock, running [36#32] [], running [36#32] [ans 9#32], runCommand (pllLockBody psme) (running [36#32] []),
    runCommand (pllLockBody psme) (running [36#32] [ans 9#32]), rfl, rfl, ⟨rfl, rfl, rfl, rfl, rfl, rfl⟩, rfl, rfl, rfl,
    by decide +kernel, by decide +kernel⟩

theorem witness_OnlyNamedCommandsChangeTheRecord :
    ∃ (i : Instr) (s t : State), exec i s = .next t ∧ t.done = true ∧ i ≠ .snsSetFormat ∧ i ≠ .snsSetCtrl :=
  ⟨.pllLock, running [] [],
    runCommand (pllLockBody psme) (running [] []), rfl, by decide +kernel, by decide, by decide⟩

theorem witness_UnnamedArgumentsAreIgnored : ∃ (i : Instr) (n : Fin 8) (v : Word) (s t t' : State),
    namesArg i n = false ∧ exec i s = .next t ∧ exec i { s with latch := s.latch.set n v } = .next t' :=
  ⟨.snsSetCtrl, 5, 7#32, running [9#32] [], runCommand (snsSetCtrlBody psme) (running [9#32] []),
    runCommand (snsSetCtrlBody psme) { running [9#32] [] with latch := (running [9#32] []).latch.set 5 7#32 }, rfl, rfl, rfl⟩

/-- The invariant holds of a state about to run a command. -/
theorem invariant_accepted : StateInv (accept 0x13#32 State.reset) :=
  ⟨by decide, by unfold HiddenEmpty; decide, fun _ => rfl, fun _ => rfl, rfl, by decide, by decide, by decide, rfl⟩

theorem witness_StepKeepsTheInvariant : ∃ s t, StateInv s ∧ step s = .next t :=
  ⟨accept 0x13#32 State.reset, runCommand (pllLockBody psme) (accept 0x13#32 State.reset), invariant_accepted, rfl⟩

end Sys2Proof.Tests
end

section
/-! PROOFS. Which port a command reaches, and what a pure command depends on (20_memory.md R51). Two properties of a
part of a sequence, each proved once per shared operation and then composed along the sequences: `ReachesOnly` says on
which port its transactions are, `PureSequence` that it makes none and runs alike from states that are alike. -/

namespace Sys2Proof.Machine

/-! ### The transactions of a sequence -/

/-- The state a part of a sequence ends in, however it ends. -/
def Res.after {α : Type} : Res α → State
  | .ok _ t => t
  | .raise _ t => t
  | .reset t => t

@[simp] theorem Res.after_ok {α : Type} (a : α) (t : State) : (Res.ok a t).after = t := rfl
@[simp] theorem Res.after_raise {α : Type} (e : Err) (t : State) : (Res.raise e t : Res α).after = t := rfl
@[simp] theorem Res.after_reset {α : Type} (t : State) : (Res.reset t : Res α).after = t := rfl

/-- From `s` to `t` every transaction made is on the port `q`; with no port none is made and no answer is drawn. -/
def Reached (q : Option Port) (s t : State) : Prop :=
  ∃ made, t.trace = s.trace ++ made ∧ (∀ x ∈ made, q = some x.port) ∧ (q = none → t.draws = s.draws)

theorem Reached.trans {q : Option Port} {s t u : State} (h : Reached q s t) (k : Reached q t u) : Reached q s u := by
  obtain ⟨a, hat, hap, had⟩ := h
  obtain ⟨b, hbt, hbp, hbd⟩ := k
  exact ⟨a ++ b, by rw [hbt, hat, List.append_assoc],
    fun x hx => (List.mem_append.mp hx).elim (hap x) (hbp x), fun hq => (hbd hq).trans (had hq)⟩

/-- Neither the trace nor the count of drawn answers moves from `s` to `t`. -/
def Unheard (s t : State) : Prop := t.trace = s.trace ∧ t.draws = s.draws

theorem Unheard.refl (s : State) : Unheard s s := ⟨rfl, rfl⟩

theorem Unheard.trans {s t u : State} (h : Unheard s t) (k : Unheard t u) : Unheard s u :=
  ⟨k.1.trans h.1, k.2.trans h.2⟩

theorem Unheard.reached {s t : State} (h : Unheard s t) (q : Option Port) : Reached q s t :=
  ⟨[], by rw [h.1, List.append_nil], fun _ hx => absurd hx List.not_mem_nil, fun _ => h.2⟩

/-- A part of a sequence makes its transactions on the port `q` only. -/
structure ReachesOnly {α : Type} (q : Option Port) (c : Cmd α) : Prop where
  reached : ∀ s, Reached q s (c s).after

theorem ReachesOnly.bind {α β : Type} {q : Option Port} {c : Cmd α} {f : α → Cmd β} (hc : ReachesOnly q c)
    (hf : ∀ a, ReachesOnly q (f a)) : ReachesOnly q (c.bind f) := by
  refine ⟨fun s => ?_⟩
  have h := hc.reached s
  cases hcs : c s with
  | ok a t => rw [hcs] at h; rw [bind_of_ok hcs]; exact h.trans ((hf a).reached t)
  | raise e t => rw [hcs] at h; rw [bind_of_raise hcs]; exact h
  | reset t => rw [hcs] at h; rw [bind_of_reset hcs]; exact h

theorem ReachesOnly.andThen {α β : Type} {q : Option Port} {c : Cmd α} {d : Cmd β} (hc : ReachesOnly q c)
    (hd : ReachesOnly q d) : ReachesOnly q (c.andThen d) := hc.bind fun _ => hd

/-! ### Pure sequences -/

/-- Two states in which a pure computation sees the same: the same latched arguments, persistent state, results and
staged results, and no staged persistent write. -/
structure Alike (s t : State) : Prop where
  latch : t.latch = s.latch
  persistent : SamePersistent s t
  res : t.res = s.res
  stagedRes : t.stagedRes = s.stagedRes
  nothingStaged : s.stagedState = [] ∧ t.stagedState = []

theorem Alike.rect {s t : State} (h : Alike s t) : t.rect = s.rect := h.persistent.1
theorem Alike.xskip {s t : State} (h : Alike s t) : t.xskip = s.xskip := h.persistent.2.1
theorem Alike.yskip {s t : State} (h : Alike s t) : t.yskip = s.yskip := h.persistent.2.2.1
theorem Alike.ySkipTop {s t : State} (h : Alike s t) : t.ySkipTop = s.ySkipTop := h.persistent.2.2.2.2.1

/-- Two runs end alike: both with the same value or both with the same error, in states that are alike. -/
inductive EndAlike {α : Type} : Res α → Res α → Prop
  | ok (a : α) {t u : State} (h : Alike t u) : EndAlike (.ok a t) (.ok a u)
  | raise (e : Err) {t u : State} (h : Alike t u) : EndAlike (.raise e t) (.raise e u)

/-- A pure computation on the latched arguments and the persistent state: it makes no transaction, draws no answer, and
ends alike from states that are alike. -/
structure PureSequence {α : Type} (c : Cmd α) : Prop where
  unheard : ∀ s, Unheard s (c s).after
  agrees : ∀ {s t}, Alike s t → EndAlike (c s) (c t)

theorem PureSequence.reachesOnly {α : Type} {c : Cmd α} (h : PureSequence c) (q : Option Port) : ReachesOnly q c :=
  ⟨fun s => (h.unheard s).reached q⟩

theorem PureSequence.bind {α β : Type} {c : Cmd α} {f : α → Cmd β} (hc : PureSequence c)
    (hf : ∀ a, PureSequence (f a)) : PureSequence (c.bind f) where
  unheard s := by
    have h := hc.unheard s
    cases hcs : c s with
    | ok a t => rw [hcs] at h; rw [bind_of_ok hcs]; exact h.trans ((hf a).unheard t)
    | raise e t => rw [hcs] at h; rw [bind_of_raise hcs]; exact h
    | reset t => rw [hcs] at h; rw [bind_of_reset hcs]; exact h
  agrees {s t} hst := by
    have h := hc.agrees hst
    generalize hs : c s = r, ht : c t = r' at h
    cases h with
    | ok a k => rw [bind_of_ok hs, bind_of_ok ht]; exact (hf a).agrees k
    | raise e k => rw [bind_of_raise hs, bind_of_raise ht]; exact .raise e k

theorem PureSequence.andThen {α β : Type} {c : Cmd α} {d : Cmd β} (hc : PureSequence c) (hd : PureSequence d) :
    PureSequence (c.andThen d) := hc.bind fun _ => hd

theorem pureSequence_ret {α : Type} (a : α) : PureSequence (Cmd.ret a) := ⟨Unheard.refl, fun h => .ok a h⟩

theorem pureSequence_raise {α : Type} (e : Err) : PureSequence (raise e : Cmd α) :=
  ⟨Unheard.refl, fun h => .raise e h⟩

/-- A computation that reads the state is pure when alike states give it the same continuation. -/
theorem pureSequence_current_bind {β : Type} {f : State → Cmd β} (hf : ∀ s, PureSequence (f s))
    (heq : ∀ {s t}, Alike s t → f t = f s) : PureSequence (current.bind f) where
  unheard s := (hf s).unheard s
  agrees {s t} hst := by
    rw [current_bind, current_bind, heq hst]
    exact (hf s).agrees hst

theorem pureSequence_require (ok : Bool) (e : Err) : PureSequence (require ok e) := by
  cases ok
  · exact pureSequence_raise e
  · exact pureSequence_ret ()

theorem pureSequence_orRaise {α : Type} (e : Err) (x : Option α) : PureSequence (orRaise e x) := by
  cases x with
  | none => exact pureSequence_raise e
  | some a => exact pureSequence_ret a

theorem pureSequence_argWord (i : Fin 8) : PureSequence (argWord i) where
  unheard := Unheard.refl
  agrees {s t} h := by
    simp only [argWord, h.latch]
    exact .ok _ h

theorem pureSequence_argU32 (i : Fin 8) : PureSequence (argU32 i) :=
  (pureSequence_argWord i).bind fun _ => pureSequence_ret _

theorem pureSequence_argS32 (i : Fin 8) : PureSequence (argS32 i) :=
  (pureSequence_argWord i).bind fun _ => pureSequence_ret _

theorem pureSequence_argBool (i : Fin 8) : PureSequence (argBool i) :=
  (pureSequence_argWord i).bind fun _ => (pureSequence_require _ _).andThen (pureSequence_ret _)

theorem pureSequence_argU16 (i : Fin 8) : PureSequence (argU16 i) :=
  (pureSequence_argWord i).bind fun _ => (pureSequence_require _ _).andThen (pureSequence_ret _)

theorem pureSequence_argIdx12 (i : Fin 8) : PureSequence (argIdx12 i) :=
  (pureSequence_argWord i).bind fun _ => (pureSequence_require _ _).andThen (pureSequence_ret _)

theorem pureSequence_stageRes (i : Fin 8) (v : Word) : PureSequence (stageRes i v) where
  unheard _ := ⟨rfl, rfl⟩
  agrees {s t} h := by
    have hst : t.stagedRes ++ [(i, v)] = s.stagedRes ++ [(i, v)] := by rw [h.stagedRes]
    exact .ok () ⟨h.latch, h.persistent, h.res, hst, h.nothingStaged⟩

theorem pureSequence_stageResults (ws : List (Fin 8 × Word)) : PureSequence (stageResults ws) := by
  induction ws with
  | nil => exact pureSequence_ret ()
  | cons w ws ih => exact (pureSequence_stageRes _ _).andThen ih

/-- The search's working values are hidden state, which no result depends on (10_state.md R35). -/
theorem pureSequence_noteSearch (b : Best) : PureSequence (noteSearch b) where
  unheard _ := ⟨rfl, rfl⟩
  agrees h := .ok () ⟨h.latch, h.persistent, h.res, h.stagedRes, h.nothingStaged⟩

theorem pureSequence_solve (c : Config) (parentRateHz targetRateHz : Nat) :
    PureSequence (solve c parentRateHz targetRateHz) :=
  (pureSequence_orRaise _ _).bind fun _ => (pureSequence_orRaise _ _).bind fun b =>
    (pureSequence_noteSearch b).andThen (pureSequence_ret b)

/-- The automatic shutter reads the record, the manual one its operands (45_sensor_control.md R204). -/
theorem pureSequence_shutterCode (c : Config) (automatic : Bool) (value minimum maximum : Int) :
    PureSequence (shutterCode c automatic value minimum maximum) := by
  unfold shutterCode
  split
  · exact pureSequence_current_bind (fun _ => pureSequence_ret _) fun h => by
      simp only [autoShutter, h.rect, h.ySkipTop]
  · exact (pureSequence_require _ _).andThen (pureSequence_ret _)

/-! ### The pure commands -/

theorem pureSequence_pllSolveBody (c : Config) : PureSequence (pllSolveBody c) :=
  (pureSequence_argU32 _).bind fun _ => (pureSequence_argU32 _).bind fun _ =>
    (pureSequence_solve _ _ _).bind fun _ => pureSequence_stageResults _

theorem pureSequence_pllRoundRateBody (c : Config) : PureSequence (pllRoundRateBody c) :=
  (pureSequence_argU32 _).bind fun _ => (pureSequence_argU32 _).bind fun _ =>
    (pureSequence_solve _ _ _).bind fun _ => pureSequence_stageRes _ _

theorem pureSequence_pllFilterBody (c : Config) : PureSequence (pllFilterBody c) :=
  (pureSequence_argU32 _).bind fun _ => pureSequence_stageRes _ _

theorem pureSequence_pllLockBody (c : Config) : PureSequence (pllLockBody c) :=
  (pureSequence_argU32 _).bind fun _ => pureSequence_stageRes _ _

theorem pureSequence_pllFieldsBody (c : Config) : PureSequence (pllFieldsBody c) :=
  (pureSequence_argU32 _).bind fun _ => (pureSequence_require _ _).andThen (pureSequence_stageResults _)

theorem pureSequence_snsWindowSolveBody (c : Config) : PureSequence (snsWindowSolveBody c) :=
  (pureSequence_argU32 _).bind fun _ => (pureSequence_argU32 _).bind fun _ =>
    pureSequence_current_bind (fun _ => pureSequence_stageResults _) fun h => by rw [h.rect]

theorem pureSequence_snsGainCodeBody : PureSequence snsGainCodeBody :=
  (pureSequence_argS32 _).bind fun _ => (pureSequence_argS32 _).bind fun _ =>
    (pureSequence_argS32 _).bind fun _ => (pureSequence_argS32 _).bind fun _ =>
    (pureSequence_require _ _).andThen (pureSequence_stageRes _ _)

theorem pureSequence_snsShutterCodeBody (c : Config) : PureSequence (snsShutterCodeBody c) :=
  (pureSequence_argBool _).bind fun _ => (pureSequence_argS32 _).bind fun _ =>
    (pureSequence_argS32 _).bind fun _ => (pureSequence_argS32 _).bind fun _ =>
    (pureSequence_shutterCode _ _ _ _ _).bind fun _ => pureSequence_stageRes _ _

theorem pureSequence_snsGetFormatBody (c : Config) : PureSequence (snsGetFormatBody c) :=
  (pureSequence_argU32 _).bind fun _ => (pureSequence_require _ _).andThen
    (pureSequence_current_bind (fun _ => pureSequence_stageResults _) fun h => by rw [h.rect, h.xskip, h.yskip])

/-- The sequence of every command that reaches no port is pure. -/
theorem pureSequence_bodyOf {i : Instr} (hi : portOf i = none) : PureSequence (bodyOf i) := by
  cases i with
  | pllSolve => exact pureSequence_pllSolveBody _
  | pllRoundRate => exact pureSequence_pllRoundRateBody _
  | pllFilter => exact pureSequence_pllFilterBody _
  | pllLock => exact pureSequence_pllLockBody _
  | pllFields => exact pureSequence_pllFieldsBody _
  | snsWindowSolve => exact pureSequence_snsWindowSolveBody _
  | snsGainCode => exact pureSequence_snsGainCodeBody
  | snsShutterCode => exact pureSequence_snsShutterCodeBody _
  | snsGetFormat => exact pureSequence_snsGetFormatBody _
  | drpRead | drpWrite | pllProgram | pllSetRate | clkEnable | clkDisable | clkSetParent | clkGetParent
  | pllRecalcRate | snsSetCtrl | snsSetFormat => nomatch hi

/-! ### The inputs that land while a command runs -/

/-- A host access is no channel transaction, and stages nothing. -/
theorem hostAccess_keeps (a : HostAccess) (s : State) :
    Unheard s (hostAccess a s) ∧ (hostAccess a s).stagedRes = s.stagedRes ∧
      (hostAccess a s).stagedState = s.stagedState := by
  cases a with
  | read sz off => exact ⟨⟨rfl, rfl⟩, rfl, rfl⟩
  | write sz off w =>
    simp only [hostAccess]
    cases hostRegAt off with
    | cmd => simp only [writeHostReg, writeCmd]; split <;> exact ⟨⟨rfl, rfl⟩, rfl, rfl⟩
    | status => simp only [writeHostReg, writeStatus]; split <;> exact ⟨⟨rfl, rfl⟩, rfl, rfl⟩
    | _ => exact ⟨⟨rfl, rfl⟩, rfl, rfl⟩

/-- What landing leaves alone beside the frame: no transaction is made, and if the command goes on nothing is staged. -/
def LandsUnheard (s : State) : Landing → Prop
  | .go t => Unheard s t ∧ t.stagedRes = s.stagedRes ∧ t.stagedState = s.stagedState
  | .reset t => Unheard s t

theorem landBusy_landsUnheard (l : List Input) (s : State) : LandsUnheard s (landBusy l s) := by
  induction l generalizing s with
  | nil => exact ⟨⟨rfl, rfl⟩, rfl, rfl⟩
  | cons x l ih =>
    cases x with
    | host a => exact ⟨⟨rfl, rfl⟩, rfl, rfl⟩
    | answer a => exact ⟨⟨rfl, rfl⟩, rfl, rfl⟩
    | issued => exact ⟨⟨rfl, rfl⟩, rfl, rfl⟩
    | reset => exact ⟨rfl, rfl⟩
    | hostBusy a =>
      simp only [landBusy]
      split
      · obtain ⟨hu, hres, hstate⟩ := hostAccess_keeps a s
        have h := ih (hostAccess a s)
        cases hl : landBusy l (hostAccess a s) with
        | go t =>
          rw [hl] at h
          obtain ⟨ku, kres, kstate⟩ := h
          exact ⟨hu.trans ku, kres.trans hres, kstate.trans hstate⟩
        | reset t => rw [hl] at h; exact hu.trans h
      · exact ⟨⟨rfl, rfl⟩, rfl, rfl⟩

theorem landInFlight_landsUnheard (s : State) : LandsUnheard s (landInFlight s) := by
  unfold landInFlight
  split
  · exact landBusy_landsUnheard _ s
  · exact ⟨⟨rfl, rfl⟩, rfl, rfl⟩

theorem reachesOnly_settle (q : Option Port) : ReachesOnly q settle := by
  refine ⟨fun s => Unheard.reached ?_ q⟩
  have h := landBusy_landsUnheard s.inputs s
  unfold settle
  cases hl : landBusy s.inputs s with
  | go t => rw [hl] at h; exact h.1
  | reset t => rw [hl] at h; exact h

/-! ### Operations that reach a port -/

@[simp] theorem takeAnswer_trace (s : State) : (takeAnswer s).2.trace = s.trace := by
  unfold takeAnswer; split <;> rfl

/-- A transaction is recorded on its own port, answered or not (20_memory.md R52). -/
theorem reachesOnly_inFlight (p : Port) (addr : Word) (op : ChanOp) : ReachesOnly (some p) (inFlight p addr op) := by
  refine ⟨fun s => ?_⟩
  have h := landInFlight_landsUnheard s
  have one : ∀ (reply : Reply), ∀ x ∈ [(⟨p, addr, op, reply⟩ : Transaction)], some p = some x.port :=
    fun reply x hx => by rw [List.mem_singleton.mp hx]
  unfold inFlight
  cases hl : landInFlight s with
  | go t => rw [hl] at h; exact ⟨_, congrArg (· ++ _) h.1.1, one _, nofun⟩
  | reset t => rw [hl] at h; exact ⟨_, congrArg (· ++ _) h.1, one _, nofun⟩

theorem reachesOnly_transact (p : Port) (addr : Word) (op : ChanOp) : ReachesOnly (some p) (transact p addr op) :=
  (reachesOnly_settle _).andThen (reachesOnly_inFlight p addr op)

theorem reachesOnly_memRead (p : Port) (addr : Word) : ReachesOnly (some p) (memRead p addr) :=
  (reachesOnly_transact p addr .read).bind fun a => by
    cases a with
    | value v => exact (pureSequence_ret v).reachesOnly _
    | ioError => exact (pureSequence_raise _).reachesOnly _

theorem reachesOnly_memWrite (p : Port) (addr v : Word) : ReachesOnly (some p) (memWrite p addr v) :=
  (reachesOnly_transact p addr (.write v)).bind fun a => by
    cases a with
    | value _ => exact (pureSequence_ret ()).reachesOnly _
    | ioError => exact (pureSequence_raise _).reachesOnly _

theorem reachesOnly_snsRead (a : Half) : ReachesOnly (some .sns) (snsRead a) :=
  (reachesOnly_memRead _ _).bind fun _ => (pureSequence_ret _).reachesOnly _

theorem reachesOnly_snsWrite (a v : Half) : ReachesOnly (some .sns) (snsWrite a v) := reachesOnly_memWrite _ _ _

theorem reachesOnly_snsUpdate (a mask : Half) (set : Bool) : ReachesOnly (some .sns) (snsUpdate a mask set) :=
  (reachesOnly_snsRead _).bind fun _ => reachesOnly_snsWrite _ _

theorem reachesOnly_snsWrites (ws : List (Half × Nat)) : ReachesOnly (some .sns) (snsWrites ws) := by
  induction ws with
  | nil => exact (pureSequence_ret ()).reachesOnly _
  | cons w ws ih => exact (reachesOnly_snsWrite _ _).andThen ih

theorem reachesOnly_pollLoop (n : Nat) : ReachesOnly (some .clk) (pollLoop n) := by
  induction n with
  | zero => exact (pureSequence_raise _).reachesOnly _
  | succ n ih =>
    have hcount : ReachesOnly (some .clk) countRead := ⟨fun _ => Unheard.reached ⟨rfl, rfl⟩ _⟩
    refine hcount.andThen ((reachesOnly_memRead _ _).bind fun v => ?_)
    split
    · exact ih
    · exact (pureSequence_ret _).reachesOnly _

theorem reachesOnly_busyWait : ReachesOnly (some .clk) busyWait :=
  have hclear : ReachesOnly (some .clk) clearCount := ⟨fun _ => Unheard.reached ⟨rfl, rfl⟩ _⟩
  hclear.andThen (reachesOnly_pollLoop _)

theorem reachesOnly_drpRead (idx : SubIndex) : ReachesOnly (some .clk) (drpRead idx) :=
  reachesOnly_busyWait.andThen ((reachesOnly_memWrite _ _ _).andThen reachesOnly_busyWait)

theorem reachesOnly_drpBase (idx : SubIndex) (mask : Half) : ReachesOnly (some .clk) (drpBase idx mask) := by
  unfold drpBase
  split
  · exact (reachesOnly_drpRead _).bind fun _ => (pureSequence_ret _).reachesOnly _
  · exact (pureSequence_ret _).reachesOnly _

theorem reachesOnly_drpWrite (idx : SubIndex) (value mask : Half) :
    ReachesOnly (some .clk) (drpWrite idx value mask) :=
  reachesOnly_busyWait.andThen ((reachesOnly_drpBase _ _).bind fun _ => reachesOnly_memWrite _ _ _)

theorem reachesOnly_programSequence (c : Config) (d m dout : Nat) :
    ReachesOnly (some .clk) (programSequence c d m dout) := by
  unfold programSequence
  induction c.mmcmPack with
  | nil => exact (pureSequence_ret ()).reachesOnly _
  | cons row rows ih => exact (reachesOnly_drpWrite _ _ _).andThen ih

theorem reachesOnly_stageState (q : Option Port) (w : StateWrite) : ReachesOnly q (stageState w) :=
  ⟨fun _ => Unheard.reached ⟨rfl, rfl⟩ q⟩

/-! ### The commands that reach a port -/

theorem reachesOnly_drpReadBody : ReachesOnly (some .clk) drpReadBody :=
  ((pureSequence_argIdx12 _).reachesOnly _).bind fun _ => (reachesOnly_drpRead _).bind fun _ =>
    (pureSequence_stageRes _ _).reachesOnly _

theorem reachesOnly_drpWriteBody : ReachesOnly (some .clk) drpWriteBody :=
  ((pureSequence_argIdx12 _).reachesOnly _).bind fun _ => ((pureSequence_argU16 _).reachesOnly _).bind fun _ =>
    ((pureSequence_argU16 _).reachesOnly _).bind fun _ => reachesOnly_drpWrite _ _ _

theorem reachesOnly_pllProgramBody (c : Config) : ReachesOnly (some .clk) (pllProgramBody c) :=
  ((pureSequence_argU32 _).reachesOnly _).bind fun _ => ((pureSequence_argU32 _).reachesOnly _).bind fun _ =>
    ((pureSequence_argU32 _).reachesOnly _).bind fun _ => ((pureSequence_require _ _).reachesOnly _).andThen
    (((pureSequence_require _ _).reachesOnly _).andThen (reachesOnly_programSequence _ _ _ _))

theorem reachesOnly_pllSetRateBody (c : Config) : ReachesOnly (some .clk) (pllSetRateBody c) :=
  ((pureSequence_argU32 _).reachesOnly _).bind fun _ => ((pureSequence_argU32 _).reachesOnly _).bind fun _ =>
    ((pureSequence_solve _ _ _).reachesOnly _).bind fun _ => (reachesOnly_programSequence _ _ _ _).andThen
    ((pureSequence_stageResults _).reachesOnly _)

theorem reachesOnly_clkSetParentBody : ReachesOnly (some .clk) clkSetParentBody :=
  ((pureSequence_argWord _).reachesOnly _).bind fun _ => ((pureSequence_require _ _).reachesOnly _).andThen
    (reachesOnly_memWrite _ _ _)

theorem reachesOnly_pllRecalcRateBody (c : Config) : ReachesOnly (some .clk) (pllRecalcRateBody c) :=
  ((pureSequence_argU32 _).reachesOnly _).bind fun _ => (reachesOnly_drpRead _).bind fun _ =>
    (reachesOnly_drpRead _).bind fun _ => (reachesOnly_drpRead _).bind fun _ =>
    (pureSequence_stageRes _ _).reachesOnly _

theorem reachesOnly_setGain (c : Config) : ReachesOnly (some .sns) (setGain c) :=
  ((pureSequence_argS32 _).reachesOnly _).bind fun _ => ((pureSequence_argS32 _).reachesOnly _).bind fun _ =>
    ((pureSequence_argS32 _).reachesOnly _).bind fun _ => ((pureSequence_argS32 _).reachesOnly _).bind fun _ =>
    ((pureSequence_require _ _).reachesOnly _).andThen (((pureSequence_require _ _).reachesOnly _).andThen
    ((reachesOnly_snsWrites _).andThen ((pureSequence_stageRes _ _).reachesOnly _)))

theorem reachesOnly_setExposure (c : Config) : ReachesOnly (some .sns) (setExposure c) := by
  refine ((pureSequence_argBool _).reachesOnly _).bind fun automatic => ?_
  have lineTime : ∀ t : Nat, ReachesOnly (some .sns)
      (if automatic then stageState (.totalLineTime (BitVec.ofNat 32 t)) else Cmd.ret ()) := fun t => by
    cases automatic
    · exact (pureSequence_ret ()).reachesOnly _
    · exact reachesOnly_stageState _ _
  exact ((pureSequence_argS32 _).reachesOnly _).bind fun _ => ((pureSequence_argS32 _).reachesOnly _).bind fun _ =>
    ((pureSequence_argS32 _).reachesOnly _).bind fun _ =>
    ((pureSequence_shutterCode _ _ _ _ _).reachesOnly _).bind fun t =>
    ((pureSequence_require _ _).reachesOnly _).andThen ((reachesOnly_snsWrites _).andThen
    ((reachesOnly_stageState _ _).andThen ((lineTime t).andThen ((pureSequence_stageRes _ _).reachesOnly _))))

theorem reachesOnly_setFlip (c : Config) (mask : Half) : ReachesOnly (some .sns) (setFlip c mask) :=
  ((pureSequence_argBool _).reachesOnly _).bind fun _ => reachesOnly_snsUpdate _ _ _

theorem reachesOnly_snsSetCtrlBody (c : Config) : ReachesOnly (some .sns) (snsSetCtrlBody c) := by
  refine ((pureSequence_argU32 _).reachesOnly _).bind fun control => ?_
  split
  · exact reachesOnly_setGain _
  · exact reachesOnly_setExposure _
  · exact reachesOnly_setFlip _ _
  · exact reachesOnly_setFlip _ _
  · exact (pureSequence_raise _).reachesOnly _

theorem reachesOnly_stageFormat (q : Option Port) (c : Config) (s : State) (w : Window) :
    ReachesOnly q (stageFormat c s w) := by
  refine ReachesOnly.andThen ?_ ((reachesOnly_stageState _ _).andThen
    ((reachesOnly_stageState _ _).andThen (reachesOnly_stageState _ _)))
  split
  · exact reachesOnly_stageState _ _
  · exact (pureSequence_ret ()).reachesOnly _

theorem reachesOnly_commitFormat (c : Config) (s : State) (w : Window) :
    ReachesOnly (some .sns) (commitFormat c s w) :=
  ((pureSequence_require _ _).reachesOnly _).andThen ((reachesOnly_snsUpdate _ _ _).andThen
    ((reachesOnly_snsWrites _).andThen ((reachesOnly_snsUpdate _ _ _).andThen
    ((reachesOnly_stageFormat _ _ _ _).andThen ((pureSequence_stageResults _).reachesOnly _)))))

theorem reachesOnly_snsSetFormatBody (c : Config) : ReachesOnly (some .sns) (snsSetFormatBody c) :=
  have hcurrent : ReachesOnly (some .sns) current := ⟨fun s => (Unheard.refl s).reached _⟩
  ((pureSequence_argU32 _).reachesOnly _).bind fun _ => ((pureSequence_argU32 _).reachesOnly _).bind fun _ =>
    ((pureSequence_argU32 _).reachesOnly _).bind fun _ => ((pureSequence_require _ _).reachesOnly _).andThen
    (hcurrent.bind fun _ => reachesOnly_commitFormat _ _ _)

/-- Every command's sequence makes its transactions on the command's port only. -/
theorem reachesOnly_bodyOf (i : Instr) : ReachesOnly (portOf i) (bodyOf i) := by
  cases i with
  | drpRead => exact reachesOnly_drpReadBody
  | drpWrite => exact reachesOnly_drpWriteBody
  | pllProgram => exact reachesOnly_pllProgramBody _
  | pllSetRate => exact reachesOnly_pllSetRateBody _
  | clkEnable => exact reachesOnly_memWrite _ _ _
  | clkDisable => exact reachesOnly_memWrite _ _ _
  | clkSetParent => exact reachesOnly_clkSetParentBody
  | clkGetParent => exact (reachesOnly_memRead _ _).bind fun _ => (pureSequence_stageRes _ _).reachesOnly _
  | pllRecalcRate => exact reachesOnly_pllRecalcRateBody _
  | snsSetCtrl => exact reachesOnly_snsSetCtrlBody _
  | snsSetFormat => exact reachesOnly_snsSetFormatBody _
  | pllSolve | pllRoundRate | pllFilter | pllLock | pllFields | snsWindowSolve | snsGainCode | snsShutterCode
  | snsGetFormat => exact (pureSequence_bodyOf rfl).reachesOnly _

/-! ### Whole commands -/

/-- Completing makes no transaction (60_exceptions.md R246). -/
theorem completeOk_unheard (t : State) : Unheard t (completeOk t) := by
  rw [completeOk, foldl_commitState_keeps]
  exact ⟨rfl, rfl⟩

theorem runCommand_reached {q : Option Port} {body : Cmd Unit} (hb : ReachesOnly q body) (s : State) :
    Reached q s (runCommand body s) := by
  have h : Reached q s ((settle.andThen body) (beginRun s)).after :=
    ((reachesOnly_settle q).andThen hb).reached (beginRun s)
  unfold runCommand
  cases hr : (settle.andThen body) (beginRun s) with
  | ok a t => rw [hr] at h; exact h.trans ((completeOk_unheard t).reached q)
  | raise e t => rw [hr] at h; exact h
  | reset t => rw [hr] at h; exact h

/-- A command that completes started its sequence from a state that keeps the frame and has nothing staged: a reset
would have left DONE clear (70_reset_and_hazards.md R271). -/
theorem landed_of_done {body : Cmd Unit} {s : State} (hd : (runCommand body s).done = true) :
    ∃ u, landedState s = some u ∧ Frame (beginRun s) u ∧ u.stagedRes = [] ∧ u.stagedState = [] := by
  have hf := landBusy_frame s.inputs (s := beginRun s) rfl ⟨[], rfl⟩
  have hk := landBusy_landsUnheard s.inputs (beginRun s)
  cases hl : landBusy s.inputs (beginRun s) with
  | go u =>
    rw [hl] at hf hk
    exact ⟨u, by simp only [landedState, hl], hf, hk.2.1, hk.2.2⟩
  | reset u =>
    rw [hl] at hf
    obtain ⟨v, -, hu, -⟩ := hf
    obtain ⟨t, ht, hrun⟩ := runCommand_not_landed (body := body) (s := s) (by simp only [landedState, hl])
    obtain rfl : u = t := by simpa [hl] using ht
    rw [hrun, hu] at hd
    exact absurd hd Bool.false_ne_true

/-- The states from which two completed commands ran their sequences are alike when the accepted states were. -/
theorem Frame.alike {s s' u u' : State} (h : Frame (beginRun s) u) (h' : Frame (beginRun s') u')
    (hlatch : s'.latch = s.latch) (hp : SamePersistent s s') (hres : s'.res = s.res)
    (hstaged : u.stagedRes = [] ∧ u.stagedState = []) (hstaged' : u'.stagedRes = [] ∧ u'.stagedState = []) :
    Alike u u' := by
  obtain ⟨hrect, hx, hy, hline, htop, hmode⟩ := hp
  refine ⟨?_, ⟨?_, ?_, ?_, ?_, ?_, ?_⟩, ?_, hstaged'.1.trans hstaged.1.symm, hstaged.2, hstaged'.2⟩
  · exact h'.latch.trans (hlatch.trans h.latch.symm)
  · exact h'.rect.trans (hrect.trans h.rect.symm)
  · exact h'.xskip.trans (hx.trans h.xskip.symm)
  · exact h'.yskip.trans (hy.trans h.yskip.symm)
  · exact h'.totalLineTime.trans (hline.trans h.totalLineTime.symm)
  · exact h'.ySkipTop.trans (htop.trans h.ySkipTop.symm)
  · exact h'.aeMode.trans (hmode.trans h.aeMode.symm)
  · exact h'.res.trans (hres.trans h.res.symm)

/-- A completion with nothing but results staged writes those and leaves the record. -/
theorem completeOk_of_noStateStaged {t : State} (h : t.stagedState = []) :
    completeOk t = afterOk t (t.stagedRes.foldl commitRes t.res) := completeOk_staged _ rfl h

/-- Two completed runs of a pure command, from accepted states with the same arguments, record and results. -/
theorem pureCommand_agrees {i : Instr} (hi : portOf i = none) {s s' : State} (hlatch : s'.latch = s.latch)
    (hp : SamePersistent s s') (hres : s'.res = s.res) (hd : (runCommand (bodyOf i) s).done = true)
    (hd' : (runCommand (bodyOf i) s').done = true) :
    (runCommand (bodyOf i) s').res = (runCommand (bodyOf i) s).res ∧
      (runCommand (bodyOf i) s').err = (runCommand (bodyOf i) s).err ∧
      SamePersistent s (runCommand (bodyOf i) s) := by
  obtain ⟨u, hl, hf, hstaged⟩ := landed_of_done hd
  obtain ⟨u', hl', hf', hstaged'⟩ := landed_of_done hd'
  have hend := (pureSequence_bodyOf hi).agrees (hf.alike hf' hlatch hp hres hstaged hstaged')
  have hframe := (framed_bodyOf i).keeps u hf.phase
  generalize hb : bodyOf i u = r, hb' : bodyOf i u' = r' at hend
  rw [hb] at hframe
  cases hend with
  | @ok _ t t' k =>
    have hrec : SamePersistent s t := (hf.trans hframe).samePersistent
    rw [runCommand_ok hl hb, runCommand_ok hl' hb', completeOk_of_noStateStaged k.nothingStaged.1,
      completeOk_of_noStateStaged k.nothingStaged.2, k.stagedRes, k.res]
    exact ⟨rfl, rfl, hrec⟩
  | @raise e t t' k =>
    have hrec : SamePersistent s t := (hf.trans hframe).samePersistent
    rw [runCommand_raise hl hb, runCommand_raise hl' hb']
    exact ⟨k.res, rfl, hrec⟩

/-- Settles O56: every sequence is composed of operations on the command's own port, and the pure ones, run from states
that agree on arguments, record and results, end alike. -/
theorem commandsReachOnlyTheirPort : Obligations.CommandsReachOnlyTheirPort := by
  refine ⟨fun i s t h => ?_, fun i s s' t t' hi hlatch hp hres h h' hd hd' => ?_⟩
  · obtain rfl : runCommand (bodyOf i) s = t := by simpa [exec_eq] using h
    exact runCommand_reached (reachesOnly_bodyOf i) s
  · obtain rfl : runCommand (bodyOf i) s = t := by simpa [exec_eq] using h
    obtain rfl : runCommand (bodyOf i) s' = t' := by simpa [exec_eq] using h'
    exact pureCommand_agrees hi hlatch hp hres hd hd'

end Sys2Proof.Machine
end

section
/-! PROOFS. The lock table and PLL_LOCK (10_state.md R37, 42_pll_solver.md R130), on two general facts about a command:
its sequence starts with nothing staged, and a sequence that only stages one result completes with just that result. -/

namespace Sys2Proof.Machine

/-! ### A command that stages one result -/

/-- Nothing is staged when a sequence starts: the inputs that land first stage nothing (10_state.md R35). -/
theorem nothingStaged_of_landed {s u : State} (h : landedState s = some u) : u.stagedRes = [] ∧ u.stagedState = [] := by
  have hk := landBusy_landsUnheard s.inputs (beginRun s)
  cases hl : landBusy s.inputs (beginRun s) with
  | go t =>
    obtain rfl : t = u := by simpa [landedState, hl] using h
    rw [hl] at hk
    obtain ⟨-, hres, hstate⟩ := hk
    exact ⟨hres, hstate⟩
  | reset t => simp [landedState, hl] at h

/-- A sequence that only stages `v` for RES[i] completes OK with just that result changed (60_exceptions.md R246). -/
theorem runCommand_of_stageRes {body : Cmd Unit} {s u : State} {i : Fin 8} {v : Word} (h : landedState s = some u)
    (hb : body u = stageRes i v u) : runCommand body s = afterOk u (u.res.set i v) := by
  obtain ⟨hres, hstate⟩ := nothingStaged_of_landed h
  have hstaged : u.stagedRes ++ [(i, v)] = [(i, v)] := by rw [hres, List.nil_append]
  rw [runCommand_ok h (hb.trans (stageRes_eq i v u))]
  exact completeOk_staged [(i, v)] hstaged hstate

/-! ### The lock table -/

theorem psme_lockTable_length : psme.lockTable.length = lockLen := rfl

/-- Below `LOCK_LEN` the lookup is the table's entry (10_state.md R37). -/
theorem lockFor_of_entry {i : Nat} {c : Word} (h : psme.lockTable[i]? = some c) : lockFor psme i = c := by
  obtain ⟨hi, -⟩ := List.getElem?_eq_some_iff.mp h
  rw [lockFor, if_pos (psme_lockTable_length ▸ hi), List.getD_eq_getElem?_getD, h, Option.getD_some]

/-- From `LOCK_LEN` on the lookup is the default (10_state.md R37). -/
theorem lockFor_of_le (c : Config) {i : Nat} (h : lockLen ≤ i) : lockFor c i = lockDefault := by
  rw [lockFor, if_neg (Nat.not_lt.mpr h)]

/-! ### PLL_LOCK -/

/-- PLL_LOCK puts the looked-up constant into RES0, whatever the index (42_pll_solver.md R130). -/
theorem exec_pllLock {s u : State} (h : landedState s = some u) :
    exec .pllLock s = .next (afterOk u (u.res.set 0 (lockFor psme (u.latch.get 0).toNat))) := by
  have hb : pllLockBody psme u = stageRes 0 (lockFor psme (u.latch.get 0).toNat) u := argU32_bind _ _ _
  rw [exec_eq]
  exact congrArg _ (runCommand_of_stageRes h hb)

/-- Settles O29: the lookup has no error path, and below and from `LOCK_LEN` on it is the entry and the default. -/
theorem pllLockLooksUpItsEntry : Obligations.PllLockLooksUpItsEntry := by
  refine ⟨rfl, psme_lockTable_length, rfl, fun s u h => ⟨fun c hc => ?_, fun hi => ?_⟩⟩
  · rw [exec_pllLock h, lockFor_of_entry hc]
  · rw [exec_pllLock h, lockFor_of_le psme hi, lockDefault]

end Sys2Proof.Machine
end

section
/-! PROOFS. The gain code and SNS_GAIN_CODE (45_sensor_control.md R200, R202, R206): on the gain domain the code the
model computes in naturals, by shifts and masks, is the integer one, and the command reports it. -/

namespace Sys2Proof.Machine

/-! ### Rounded division -/

/-- Scaling a proportion `a / b ≤ 1` to `k` steps gives at most `k`. -/
theorem roundDiv_mul_le {a b : Nat} (k : Nat) (hab : a ≤ b) (hb : 0 < b) : roundDiv (a * k) b ≤ k := by
  have hscaled : a * k ≤ b * k := Nat.mul_le_mul_right k hab
  have hnum : a * k + b / 2 < b * (k + 1) := by rw [Nat.mul_add_one]; omega
  exact Nat.le_of_lt_succ (Nat.div_lt_of_lt_mul hnum)

/-- `round_div` of integer differences, in integers (00_scope.md R12). -/
theorem natCast_roundDiv_mul {x y : Int} (k : Nat) (hx : 0 ≤ x) (hy : 0 ≤ y) :
    (roundDiv (x.toNat * k) y.toNat : Int) = (x * k + y / 2) / y := by
  rw [roundDiv]
  push_cast
  rw [Int.toNat_of_nonneg hx, Int.toNat_of_nonneg hy]

/-! ### The gain checks and the gain code -/

/-- The gain checks are the gain domain (45_sensor_control.md R200). -/
theorem gainOk_iff (value minimum maximum defaultValue : Int) :
    gainOk value minimum maximum defaultValue = true ↔ GainDomain value minimum maximum defaultValue := by
  rw [gainOk, GainDomain, Bool.and_eq_true, decide_eq_true_iff]
  split <;> rw [decide_eq_true_iff] <;> omega

/-- The masks of the coarse gain keep bits 15:8 and force the low byte to 0x60 (45_sensor_control.md R202). -/
theorem coarseMasks_eq {x : Nat} (hx : x < 0x10000) : (x &&& 0xFF00) ||| 0x60 = x / 256 * 256 + 0x60 := by
  have hhigh : ((x &&& 0xFF00) ||| 0x60) / 2 ^ 8 = x / 2 ^ 8 % 2 ^ 8 := by
    rw [Nat.or_div_two_pow, Nat.and_div_two_pow]
    exact (Nat.or_zero _).trans (Nat.and_two_pow_sub_one_eq_mod (x / 2 ^ 8) 8)
  have hlow : ((x &&& 0xFF00) ||| 0x60) % 2 ^ 8 = 0x60 := by
    rw [Nat.or_mod_two_pow, Nat.and_mod_two_pow]
    exact congrArg (· ||| 0x60) (Nat.and_zero (x % 2 ^ 8))
  omega

/-- The three ranges of the upper segment's code, in integers (45_sensor_control.md R202); the 16-bit mask loses nothing
up to the largest gain. -/
theorem natCast_highGainCode {gain : Nat} (h : gain ≤ 1024) :
    (highGainCode gain : Int) = if (gain : Int) ≤ 32 then (gain : Int)
      else if (gain : Int) ≤ 64 then ((gain - 32 : Int) * 16 + 16) / 32 + 80
      else (gain - 57 : Int) * 32 / 256 * 256 + 0x60 := by
  have hmasks := coarseMasks_eq (x := (gain - 64 + 7) * 32) (by omega)
  rw [highGainCode, hmasks, roundDiv]
  split_ifs <;> omega

/-- On the gain domain the gain code is the integer one (45_sensor_control.md R202). -/
theorem natCast_gainCode {value minimum maximum defaultValue : Int}
    (h : GainDomain value minimum maximum defaultValue) :
    (gainCode value minimum maximum defaultValue : Int) = gainCodeInt value minimum maximum defaultValue := by
  obtain ⟨hmin, -, hvalue, hmax, -, hrange⟩ := h
  rw [gainCode, gainCodeInt]
  split_ifs with hseg
  · exact natCast_roundDiv_mul 8 (by omega) (by omega)
  · have hpos := hrange (by omega)
    have hgain := roundDiv_mul_le 1015 (a := (value - defaultValue - 1).toNat)
      (b := (maximum - defaultValue - 1).toNat) (by omega) (by omega)
    rw [natCast_highGainCode (by omega), Nat.cast_add, natCast_roundDiv_mul 1015 (by omega) (by omega)]
    rfl

/-! ### SNS_GAIN_CODE -/

/-- The sequence from `u`: the checks on the four latched operands, then the code staged for RES0
(45_sensor_control.md R206). -/
theorem snsGainCodeBody_eq (u : State) :
    snsGainCodeBody u =
      (require (gainOk (u.latch.get 0).toInt (u.latch.get 1).toInt (u.latch.get 2).toInt (u.latch.get 3).toInt)
        .invalidRequest).andThen
      (stageRes 0 (BitVec.ofNat 32 (gainCode (u.latch.get 0).toInt (u.latch.get 1).toInt (u.latch.get 2).toInt
        (u.latch.get 3).toInt))) u := by
  simp only [snsGainCodeBody, argS32_bind]

/-- Settles O43: the checks accept exactly the gain domain; on it the sequence only stages the code, the integer
one, and outside it the sequence only raises InvalidRequest. -/
theorem snsGainCodeReportsTheCode : Obligations.SnsGainCodeReportsTheCode := by
  refine ⟨rfl, fun s u hl => ⟨fun h => ?_, fun h => ?_⟩⟩
  · have hb := snsGainCodeBody_eq u
    rw [require_of_true ((gainOk_iff _ _ _ _).mpr h), ret_andThen] at hb
    rw [exec_eq, ← natCast_gainCode h, BitVec.ofInt_natCast]
    exact congrArg _ (runCommand_of_stageRes hl hb)
  · have hb := snsGainCodeBody_eq u
    rw [require_of_false (Bool.eq_false_iff.mpr fun hok => h ((gainOk_iff _ _ _ _).mp hok)), raise_andThen] at hb
    rw [exec_eq]
    exact congrArg _ (runCommand_raise hl hb)

end Sys2Proof.Machine
end

section
/-! PROOFS. The host window and the inputs that land (10_state.md R21 to R27; log 2): what a host access can do, what a
command's landed inputs can do, and where a command can end. -/

namespace Sys2Proof.Machine

/-! ### What a host access does -/

/-- A host access is accepted as a command word, or it changes ARG, OVERRUN and the record of reads only (10_state.md
R22 to R27). -/
theorem hostAccess_cases (a : HostAccess) (s : State) :
    (s.phase = .idle ∧ ∃ w, hostAccess a s = accept w s) ∨
      hostAccess a s = { s with arg := (hostAccess a s).arg, overrun := (hostAccess a s).overrun,
                                hostReads := (hostAccess a s).hostReads } := by
  cases a with
  | read sz off => exact .inr rfl
  | write sz off w =>
    simp only [hostAccess]
    cases hostRegAt off with
    | cmd =>
      simp only [writeHostReg, writeCmd]
      cases hp : s.phase with
      | idle => exact .inl ⟨rfl, w, rfl⟩
      | run => exact .inr rfl
    | status =>
      simp only [writeHostReg, writeStatus]
      split <;> exact .inr rfl
    | _ => exact .inr rfl

/-- While a command runs, a host access changes ARG, OVERRUN and the record of reads only. -/
theorem hostAccess_running (a : HostAccess) {s : State} (hs : s.phase = .run) :
    hostAccess a s = { s with arg := (hostAccess a s).arg, overrun := (hostAccess a s).overrun,
                              hostReads := (hostAccess a s).hostReads } := by
  obtain ⟨hidle, -⟩ | h := hostAccess_cases a s
  · exact absurd (hs.symm.trans hidle) nofun
  · exact h

/-! ### What the inputs that land do -/

/-- Inputs have landed on a running command: host accesses, which change ARG, OVERRUN and the record of reads only. -/
structure Landed (s t : State) (landed : List Input) : Prop where
  eq : t = { s with arg := t.arg, overrun := t.overrun, hostReads := t.hostReads, inputs := t.inputs }
  accesses : ∀ x ∈ landed, ∃ a : HostAccess, x = .hostBusy a ∧ a.wellFormed = true
  unchanged : landed = [] → t.arg = s.arg ∧ t.overrun = s.overrun ∧ t.hostReads = s.hostReads

/-- No input lands when the next one is none of those that do. -/
theorem landed_nil (s : State) (l : List Input) : Landed s { s with inputs := l } [] :=
  ⟨rfl, nofun, fun _ => ⟨rfl, rfl, rfl⟩⟩

/-- A running command goes on after the host accesses at the head of the list, the inputs behind them left (log 2). -/
theorem landBusy_landed {l : List Input} {s t : State} (hs : s.phase = .run) (h : landBusy l s = .go t) :
    ∃ landed, l = landed ++ t.inputs ∧ Landed s t landed := by
  induction l generalizing s with
  | nil => cases h; exact ⟨[], rfl, landed_nil s []⟩
  | cons x l ih =>
    cases x with
    | host a => cases h; exact ⟨[], rfl, landed_nil s _⟩
    | answer a => cases h; exact ⟨[], rfl, landed_nil s _⟩
    | issued => cases h; exact ⟨[], rfl, landed_nil s _⟩
    | reset => cases h
    | hostBusy a =>
      rw [landBusy] at h
      split at h
      next ha =>
        have hr := hostAccess_running a hs
        obtain ⟨landed, hl, k⟩ := ih (by rw [hr]; exact hs) h
        refine ⟨.hostBusy a :: landed, by rw [hl, List.cons_append], ?_, ?_, nofun⟩
        · rw [k.eq, hr]
        · exact List.forall_mem_cons.mpr ⟨⟨a, rfl, ha⟩, k.accesses⟩
      next => cases h; exact ⟨[], rfl, landed_nil s _⟩

/-- What the state a sequence starts from is (log 2). -/
theorem landed_of_landedState {s u : State} (h : landedState s = some u) :
    ∃ landed, s.inputs = landed ++ u.inputs ∧ Landed (beginRun s) u landed := by
  rw [landedState] at h
  split at h
  next t ht =>
    cases h
    exact landBusy_landed rfl ht
  next => cases h

/-- Either a command's sequence starts, from a state that keeps the frame and has made no transaction, or a reset
abandons every command there, with no transaction made (log 2). -/
theorem landed_or_abandoned (s : State) :
    (∃ u, landedState s = some u ∧ Frame (beginRun s) u ∧ Unheard s u) ∨
      ∃ t, Abandoned (beginRun s) t ∧ Unheard s t ∧ ∀ body, runCommand body s = t := by
  have hf := landBusy_frame s.inputs (s := beginRun s) rfl ⟨[], rfl⟩
  have hk := landBusy_landsUnheard s.inputs (beginRun s)
  cases hl : landBusy s.inputs (beginRun s) with
  | go u =>
    rw [hl] at hf hk
    exact .inl ⟨u, by rw [landedState, hl], hf, hk.1⟩
  | reset t =>
    rw [hl] at hf hk
    refine .inr ⟨t, hf, hk, fun body => ?_⟩
    obtain ⟨t', ht', hrun⟩ := runCommand_not_landed (body := body) (s := s) (by rw [landedState, hl])
    rw [hl] at ht'
    cases ht'
    exact hrun

/-- Settles O14: the landed inputs are host accesses, each of which changes no more than that. -/
theorem landedAccessesFrame : Obligations.LandedAccessesFrame := by
  intro s u h
  obtain ⟨landed, hin, k⟩ := landed_of_landedState h
  refine ⟨k.eq, ⟨landed, hin, k.accesses⟩, fun hsame => k.unchanged ?_⟩
  exact List.self_eq_append_left.mp (hsame.trans hin)

end Sys2Proof.Machine
end

section
/-! PROOFS. The sensor window (44_sensor_window.md R181 to R189): the configuration's laws, and what a solved window is
under them. -/

namespace Sys2Proof.Machine

/-! ### The configuration's laws -/

/-- The skip helper keeps its law (44_sensor_window.md R182, R183): past one and a half targets the quotient is at least
1, and its product with the target does not pass the maximum. -/
theorem skipFn_skipLaw : SkipLaw skipFn := by
  intro source target mx ht hmx
  rw [skipFn]
  split
  next => exact ⟨le_refl 1, Nat.le_of_ble_eq_true rfl, ht, hmx⟩
  next hs =>
    have hquot : 1 ≤ min mx (source + target / 2) / target := (Nat.one_le_div_iff ht).mpr (by omega)
    have hextent : target * min (min mx (source + target / 2) / target) skipMax ≤ mx :=
      calc target * min (min mx (source + target / 2) / target) skipMax
        _ ≤ target * (min mx (source + target / 2) / target) := Nat.mul_le_mul_left _ (Nat.min_le_left _ _)
        _ ≤ min mx (source + target / 2) := Nat.mul_div_le _ _
        _ ≤ mx := Nat.min_le_left _ _
    have hskip : 1 ≤ min (min mx (source + target / 2) / target) skipMax := Nat.le_min.mpr ⟨hquot, by decide⟩
    exact ⟨hskip, Nat.min_le_right _ _, Nat.mul_pos ht hskip, hextent⟩

/-- With alignment 1 and even limits the size policy clamps, then rounds up to even (44_sensor_window.md R181). -/
theorem alignSize_even (x : Nat) {hi : Nat} (hhi : hi % 2 = 0) :
    alignSize x 2 hi 1 = min (max x 2) hi + min (max x 2) hi % 2 := by
  have hlimit : hi / 2 * 2 = hi := by omega
  have h : alignSize x 2 hi 1 = (min (max x 2) (hi / 2 * 2) + 1) / 2 * 2 := rfl
  rw [h, hlimit]
  omega

/-- The size policy stays in its aligned limits (44_sensor_window.md R181). -/
theorem alignSize_alignLaw {hi : Nat} (hlo : 2 ≤ hi) (hhi : hi % 2 = 0) : AlignLaw alignSize 2 hi 1 := by
  intro x
  rw [alignSize_even x hhi]
  omega

/-- Settles O38. -/
theorem configurationMeetsItsLaws : Obligations.ConfigurationMeetsItsLaws where
  skip := skipFn_skipLaw
  alignWidth := alignSize_alignLaw (hi := 2048) (by decide) (by decide)
  alignHeight := alignSize_alignLaw (hi := 1536) (by decide) (by decide)
  minWidth := by decide
  minHeight := by decide
  widthRange := by decide
  heightRange := by decide
  widthFits := by decide
  heightFits := by decide
  columnSkipFits := by decide
  addresses := by simp [SnsRegs.Fit, psme, snsReg]

/-! ### One axis of a solved window -/

/-- The skip helper's law holds of the aligned size: it lies between 1 and the maximum (44_sensor_window.md R182). -/
theorem axis_bounds {c : Config} (hskip : SkipLaw c.skipFn) {lo hi a : Nat} (halign : AlignLaw c.alignSize lo hi a)
    (hlo : 1 ≤ (lo + 2 ^ a - 1) / 2 ^ a * 2 ^ a) (source req : Nat) :
    1 ≤ (c.skipFn source (c.alignSize req lo hi a) hi).1 ∧ (c.skipFn source (c.alignSize req lo hi a) hi).1 ≤ 8 ∧
      1 ≤ (c.skipFn source (c.alignSize req lo hi a) hi).2 ∧ (c.skipFn source (c.alignSize req lo hi a) hi).2 ≤ hi := by
  obtain ⟨hlow, hhigh⟩ := halign req
  exact hskip _ _ _ (hlo.trans hlow) (hhigh.trans (Nat.div_mul_le_self _ _))

theorem windowSolve_width_bounds {c : Config} (hc : c.Lawful) (reqW reqH : Nat) (r : Rect) :
    let w := windowSolve c reqW reqH r
    1 ≤ w.xskip ∧ w.xskip ≤ 8 ∧ 1 ≤ w.width ∧ w.width ≤ c.snsMaxWidth :=
  axis_bounds hc.skip hc.alignWidth hc.minWidth _ _

theorem windowSolve_height_bounds {c : Config} (hc : c.Lawful) (reqW reqH : Nat) (r : Rect) :
    let w := windowSolve c reqW reqH r
    1 ≤ w.yskip ∧ w.yskip ≤ 8 ∧ 1 ≤ w.height ∧ w.height ≤ c.snsMaxHeight :=
  axis_bounds hc.skip hc.alignHeight hc.minHeight _ _

/-! ### The origin -/

/-- Clearing the low `n` bits of a coordinate rounds it down to a multiple (44_sensor_window.md R185, R186). -/
theorem toNat_and_allOnes_shiftLeft (x : Half) (n : Nat) :
    (x &&& BitVec.allOnes 16 <<< n).toNat = x.toNat / 2 ^ n * 2 ^ n := by
  rw [← BitVec.shiftLeft_ushiftRight, BitVec.toNat_shiftLeft, BitVec.toNat_ushiftRight, Nat.shiftRight_eq_div_pow,
    Nat.shiftLeft_eq]
  exact Nat.mod_eq_of_lt ((Nat.div_mul_le_self _ _).trans_lt x.isLt)

theorem toNat_and_not_one (x : Half) : (x &&& ~~~1#16).toNat = x.toNat / 2 * 2 := toNat_and_allOnes_shiftLeft x 1

theorem toNat_and_not_three (x : Half) : (x &&& ~~~3#16).toNat = x.toNat / 4 * 4 := toNat_and_allOnes_shiftLeft x 2

/-- The aligned left edge for each binning factor, in plain arithmetic (44_sensor_window.md R185). -/
theorem alignLeft_eq (c : Config) (left : Half) (xbin : Nat) :
    alignLeft c left xbin = if xbin = 1 then left.toNat / 2 * 2 else if xbin = 2 then left.toNat / 4 * 4
      else max (left.toNat / 6 * 6) (ceil6 c.columnSkip) := by
  rw [alignLeft, toNat_and_not_one, toNat_and_not_three, floor6]

theorem ceil6_eq (x : Nat) : ceil6 x = (x + 5) / 6 * 6 := rfl

/-- The left edge is even and fits its register (44_sensor_window.md R185, 10_state.md R28). -/
theorem alignLeft_even_lt {c : Config} (hc : (c.columnSkip + 5) / 6 * 6 < 2 ^ 16) (left : Half) (xbin : Nat) :
    alignLeft c left xbin % 2 = 0 ∧ alignLeft c left xbin < 2 ^ 16 := by
  rw [alignLeft_eq, ceil6_eq]
  have := left.isLt
  split_ifs <;> omega

theorem alignTop_eq (top : Half) : alignTop top = top.toNat / 2 * 2 := toNat_and_not_one top

/-! ### The window -/

/-- Settles O39: the extents are the skip helper's, and the origin is cut to its multiple by the binning. -/
theorem solvedWindowIsAligned : Obligations.SolvedWindowIsAligned := by
  intro c reqW reqH r hc
  obtain ⟨-, -, -, hwidth⟩ := windowSolve_width_bounds hc reqW reqH r
  obtain ⟨-, -, -, hheight⟩ := windowSolve_height_bounds hc reqW reqH r
  have hleft : (windowSolve c reqW reqH r).left = _ := alignLeft_eq c r.left (windowSolve c reqW reqH r).xbin
  have htop : (windowSolve c reqW reqH r).top = _ := alignTop_eq r.top
  refine ⟨fun h => ?_, fun h => ?_, fun h => ?_, by omega, hwidth, hheight, fun h hlow => ?_⟩
  · rw [hleft, if_pos h]; omega
  · rw [hleft, if_neg (by omega), if_pos h]; omega
  · rw [hleft, ceil6_eq, if_neg (by omega), if_neg (by omega)]; omega
  · rw [hleft, ceil6_eq, if_neg (by omega), if_neg (by omega)]; omega

/-- Settles O40. -/
theorem windowSolveComputesTheFactors : Obligations.WindowSolveComputesTheFactors := by
  intro reqW reqH r
  have hw : psme.alignSize reqW psme.snsMinWidth psme.snsMaxWidth psme.snsWAlign = _ :=
    alignSize_even reqW (hi := 2048) (by decide)
  have hh : psme.alignSize reqH psme.snsMinHeight psme.snsMaxHeight psme.snsHAlign = _ :=
    alignSize_even reqH (hi := 1536) (by decide)
  refine ⟨?_, ?_, rfl, rfl, alignTop_eq r.top, alignLeft_eq psme r.left _⟩
  · exact (congrArg (psme.skipFn _ · _) hw).trans rfl
  · exact (congrArg (psme.skipFn _ · _) hh).trans rfl

end Sys2Proof.Machine
end

section
/-! PROOFS. The shape of a command's sequence (00_scope.md R13, R15): operand checks, which raise rejections only and
touch nothing but hidden state, then channel accesses and staging, which raise channel errors only. The sequences are
taken apart once, into these two kinds of part; every property of all commands is then an induction over the shape. -/

namespace Sys2Proof.Machine

/-! ### The two kinds of error -/

/-- The errors that reject a request (60_exceptions.md R241, R242). -/
inductive Err.Rejects : Err → Prop
  | invalidRequest : Err.Rejects .invalidRequest
  | noFeasibleSolution : Err.Rejects .noFeasibleSolution

/-- The errors of a failing access to an address the PSME issues (60_exceptions.md R243, 20_memory.md R58). -/
inductive Err.OfChannel : Err → Prop
  | timeout : Err.OfChannel (.timeout .clk 0x74#32)
  | ioError (p : Port) (addr : Word) (h : errRecord p addr ∈ channelRecords) : Err.OfChannel (.ioError p addr)

theorem Err.Rejects.recordFits {e : Err} (h : e.Rejects) : RecordFits e.errCode e.info := by cases h <;> rfl

theorem Err.OfChannel.recordFits {e : Err} (h : e.OfChannel) : RecordFits e.errCode e.info := by
  cases h with
  | timeout => rfl
  | ioError p addr h => exact h

/-! ### The shape -/

/-- A computation that looks at the state does not look at the latch. -/
def LatchBlind {α : Type} (f : State → Cmd α) : Prop := ∀ s l, f { s with latch := l } = f s

/-- Operand checks: they read the latched arguments in `names` and the record, and may reject the request. -/
inductive Checks (names : Fin 8 → Bool) : {α : Type} → Cmd α → Prop
  | ret {α : Type} (a : α) : Checks names (Cmd.ret a)
  | reject {α : Type} {e : Err} (h : e.Rejects) : Checks names (raise e : Cmd α)
  | arg (i : Fin 8) (h : names i = true) : Checks names (argWord i)
  | note (b : Best) : Checks names (noteSearch b)
  | look {α : Type} {f : State → Cmd α} (hf : ∀ s, Checks names (f s)) (hl : LatchBlind f) :
      Checks names (current.bind f)
  | bind {α β : Type} {c : Cmd α} {f : α → Cmd β} (hc : Checks names c) (hf : ∀ a, Checks names (f a)) :
      Checks names (c.bind f)

/-- Channel accesses and staging, of persistent writes in `writes` only. -/
inductive Actions (writes : StateWrite → Prop) : {α : Type} → Cmd α → Prop
  | ret {α : Type} (a : α) : Actions writes (Cmd.ret a)
  | read {p : Port} {addr : Word} (hr : errRecord p addr ∈ channelRecords) (hs : p = .clk → addr ≠ 0x74#32) :
      Actions writes (memRead p addr)
  | write {p : Port} {addr : Word} (v : Word) (hr : errRecord p addr ∈ channelRecords) : Actions writes (memWrite p addr v)
  | wait : Actions writes busyWait
  | stageRes (i : Fin 8) (v : Word) : Actions writes (stageRes i v)
  | stageState {w : StateWrite} (h : writes w) : Actions writes (stageState w)
  | bind {α β : Type} {c : Cmd α} {f : α → Cmd β} (hc : Actions writes c) (hf : ∀ a, Actions writes (f a)) :
      Actions writes (c.bind f)

/-- A command's sequence: checks first, then actions (60_exceptions.md R241, R242). -/
inductive Sequence (names : Fin 8 → Bool) (writes : StateWrite → Prop) : Cmd Unit → Prop
  | act {c : Cmd Unit} (h : Actions writes c) : Sequence names writes c
  | check {α : Type} {c : Cmd α} {f : α → Cmd Unit} (hc : Checks names c) (hf : ∀ a, Sequence names writes (f a)) :
      Sequence names writes (c.bind f)
  | look {f : State → Cmd Unit} (hf : ∀ s, Sequence names writes (f s)) (hl : LatchBlind f) :
      Sequence names writes (current.bind f)

theorem Actions.andThen {writes : StateWrite → Prop} {α β : Type} {c : Cmd α} {d : Cmd β} (hc : Actions writes c)
    (hd : Actions writes d) : Actions writes (c.andThen d) := hc.bind fun _ => hd

/-! ### Operand checks -/

section
variable {names : Fin 8 → Bool}

theorem checks_require (ok : Bool) {e : Err} (h : e.Rejects) : Checks names (require ok e) := by
  cases ok
  · exact .reject h
  · exact .ret ()

theorem checks_orRaise {α : Type} {e : Err} (h : e.Rejects) (x : Option α) : Checks names (orRaise e x) := by
  cases x with
  | none => exact .reject h
  | some a => exact .ret a

theorem checks_argU32 {i : Fin 8} (h : names i = true) : Checks names (argU32 i) := (Checks.arg i h).bind fun _ => .ret _

theorem checks_argS32 {i : Fin 8} (h : names i = true) : Checks names (argS32 i) := (Checks.arg i h).bind fun _ => .ret _

theorem checks_argBool {i : Fin 8} (h : names i = true) : Checks names (argBool i) :=
  (Checks.arg i h).bind fun _ => (checks_require _ .invalidRequest).bind fun _ => .ret _

theorem checks_argU16 {i : Fin 8} (h : names i = true) : Checks names (argU16 i) :=
  (Checks.arg i h).bind fun _ => (checks_require _ .invalidRequest).bind fun _ => .ret _

theorem checks_argIdx12 {i : Fin 8} (h : names i = true) : Checks names (argIdx12 i) :=
  (Checks.arg i h).bind fun _ => (checks_require _ .invalidRequest).bind fun _ => .ret _

theorem checks_solve (c : Config) (parentRateHz targetRateHz : Nat) : Checks names (solve c parentRateHz targetRateHz) :=
  (checks_orRaise .invalidRequest _).bind fun _ => (checks_orRaise .noFeasibleSolution _).bind fun b =>
    (Checks.note b).bind fun _ => .ret b

theorem checks_shutterCode (c : Config) (automatic : Bool) (value minimum maximum : Int) :
    Checks names (shutterCode c automatic value minimum maximum) := by
  unfold shutterCode
  split
  · exact .look (fun _ => .ret _) fun _ _ => rfl
  · exact (checks_require _ .invalidRequest).bind fun _ => .ret _

end

/-! ### Actions -/

/-- Sensor writes to addresses the PSME issues (20_memory.md R58). -/
def SnsAddressed (ws : List (Half × Nat)) : Prop := ∀ w ∈ ws, errRecord .sns (w.1.setWidth 32) ∈ channelRecords

theorem snsAddressed_nil : SnsAddressed [] := nofun

theorem SnsAddressed.cons {a : Half} (ha : errRecord .sns (a.setWidth 32) ∈ channelRecords) (v : Nat)
    {ws : List (Half × Nat)} (h : SnsAddressed ws) : SnsAddressed ((a, v) :: ws) := List.forall_mem_cons.mpr ⟨ha, h⟩

theorem SnsAddressed.append {ws vs : List (Half × Nat)} (h : SnsAddressed ws) (k : SnsAddressed vs) :
    SnsAddressed (ws ++ vs) := fun x hx => (List.mem_append.mp hx).elim (h x) (k x)

section
variable {writes : StateWrite → Prop}

theorem actions_stageResults (ws : List (Fin 8 × Word)) : Actions writes (stageResults ws) := by
  induction ws with
  | nil => exact .ret ()
  | cons w ws ih => exact (Actions.stageRes _ _).andThen ih

theorem actions_drpRead (idx : SubIndex) : Actions writes (drpRead idx) :=
  Actions.wait.andThen ((Actions.write _ (by decide)).andThen .wait)

theorem actions_drpBase (idx : SubIndex) (mask : Half) : Actions writes (drpBase idx mask) := by
  unfold drpBase
  split
  · exact (actions_drpRead _).bind fun _ => .ret _
  · exact .ret _

theorem actions_drpWrite (idx : SubIndex) (value mask : Half) : Actions writes (drpWrite idx value mask) :=
  Actions.wait.andThen ((actions_drpBase _ _).bind fun _ => .write _ (by decide))

theorem actions_writeRows (x : PackInput) (rows : List PackRow) : Actions writes (writeRows x rows) := by
  induction rows with
  | nil => exact .ret ()
  | cons row rows ih => exact (actions_drpWrite _ _ _).andThen ih

theorem actions_snsUpdate {a : Half} (ha : errRecord .sns (a.setWidth 32) ∈ channelRecords) (mask : Half) (set : Bool) :
    Actions writes (snsUpdate a mask set) :=
  ((Actions.read ha nofun).bind fun _ => .ret _).bind fun _ => .write _ ha

theorem actions_snsWrites {ws : List (Half × Nat)} (h : SnsAddressed ws) : Actions writes (snsWrites ws) := by
  induction ws with
  | nil => exact .ret ()
  | cons w ws ih =>
    obtain ⟨hw, hws⟩ := List.forall_mem_cons.mp h
    exact (Actions.write _ hw).andThen (ih hws)

end

/-! ### The addresses of the sensor writes -/

theorem snsAddressed_shutterWrites (t : Nat) : SnsAddressed (shutterWrites psme t) :=
  .cons (a := 0x08#16) (by decide) _ (.cons (a := 0x09#16) (by decide) _ snsAddressed_nil)

theorem snsAddressed_gainWrites (code : Nat) : SnsAddressed (gainWrites psme code) :=
  .cons (a := 0x35#16) (by decide) _ snsAddressed_nil

theorem snsAddressed_addrModeWrites (s : State) (w : Window) : SnsAddressed (addrModeWrites psme s w) := by
  unfold addrModeWrites
  split
  · exact .cons (by decide) _ (.cons (by decide) _ snsAddressed_nil)
  · exact snsAddressed_nil

theorem snsAddressed_formatWrites (s : State) (w : Window) : SnsAddressed (formatWrites psme s w) := by
  unfold formatWrites
  refine .append (.append (.append ?blanking (snsAddressed_addrModeWrites s w)) ?window) ?shutter
  case blanking => exact .cons (by decide) _ (.cons (by decide) _ snsAddressed_nil)
  case window =>
    exact .cons (by decide) _ (.cons (by decide) _ (.cons (by decide) _ (.cons (by decide) _ snsAddressed_nil)))
  case shutter =>
    split
    · exact snsAddressed_shutterWrites _
    · exact snsAddressed_nil

/-! ### What a command may stage -/

/-- A rect that a solved window can have (44_sensor_window.md R189). -/
def Rect.Valid (r : Rect) : Prop :=
  (1 ≤ r.width.toNat ∧ r.width.toNat ≤ 2048 ∧ 1 ≤ r.height.toNat ∧ r.height.toNat ≤ 1536) ∧
  r.left.toNat % 2 = 0 ∧ r.top.toNat % 2 = 0

/-- A skip factor in range (10_state.md R29). -/
def SkipValid (v : Nibble) : Prop := 1 ≤ v.toNat ∧ v.toNat ≤ 8

/-- The persistent writes of a format commit (45_sensor_control.md R216). -/
inductive FormatWrite : StateWrite → Prop
  | rect {r : Rect} (h : r.Valid) : FormatWrite (.rect r)
  | xskip {v : Nibble} (h : SkipValid v) : FormatWrite (.xskip v)
  | yskip {v : Nibble} (h : SkipValid v) : FormatWrite (.yskip v)
  | totalLineTime (v : Word) : FormatWrite (.totalLineTime v)

/-- The persistent writes of an exposure control (45_sensor_control.md R210). -/
inductive ExposureWrite : StateWrite → Prop
  | aeMode (b : Bool) : ExposureWrite (.aeMode b)
  | totalLineTime (v : Word) : ExposureWrite (.totalLineTime v)

/-- The persistent writes a command may stage (10_state.md R28 to R32). -/
def mayWrite : Instr → StateWrite → Prop
  | .snsSetFormat => FormatWrite
  | .snsSetCtrl => ExposureWrite
  | _ => fun _ => False

/-- A value that fits is not cut. -/
theorem toNat_ofNat_of_lt {n v : Nat} (h : v < 2 ^ n) : (BitVec.ofNat n v).toNat = v := by
  rw [BitVec.toNat_ofNat, Nat.mod_eq_of_lt h]

/-- A window solved on this hardware is stored whole, with skips in range. -/
theorem windowSolve_valid (reqW reqH : Nat) (r : Rect) :
    let w := windowSolve psme reqW reqH r
    w.rect.Valid ∧ SkipValid (BitVec.ofNat 4 w.xskip) ∧ SkipValid (BitVec.ofNat 4 w.yskip) := by
  intro w
  have hc := configurationMeetsItsLaws
  obtain ⟨hx1, hx8, hw1, hw⟩ : 1 ≤ w.xskip ∧ w.xskip ≤ 8 ∧ 1 ≤ w.width ∧ w.width ≤ 2048 :=
    windowSolve_width_bounds hc reqW reqH r
  obtain ⟨hy1, hy8, hh1, hh⟩ : 1 ≤ w.yskip ∧ w.yskip ≤ 8 ∧ 1 ≤ w.height ∧ w.height ≤ 1536 :=
    windowSolve_height_bounds hc reqW reqH r
  obtain ⟨hleft, -⟩ : w.left % 2 = 0 ∧ w.left < 2 ^ 16 := alignLeft_even_lt hc.columnSkipFits r.left w.xbin
  have htop : w.top = r.top.toNat / 2 * 2 := alignTop_eq r.top
  simp only [Rect.Valid, SkipValid, Window.rect, BitVec.toNat_ofNat]
  omega

/-! ### The sequences of the commands -/

theorem actions_stageFormat (s : State) (reqW reqH : Nat) (r : Rect) :
    Actions FormatWrite (stageFormat psme s (windowSolve psme reqW reqH r)) := by
  obtain ⟨hrect, hx, hy⟩ := windowSolve_valid reqW reqH r
  refine Actions.andThen ?_ ((Actions.stageState (.rect hrect)).andThen
    ((Actions.stageState (.xskip hx)).andThen (.stageState (.yskip hy))))
  split
  · exact .stageState (.totalLineTime _)
  · exact .ret ()

/-- The commit checks that the values fit, then acts (45_sensor_control.md R201, R216). -/
theorem sequence_commitFormat {names : Fin 8 → Bool} (s : State) (reqW reqH : Nat) (r : Rect) :
    Sequence names FormatWrite (commitFormat psme s (windowSolve psme reqW reqH r)) :=
  .check (checks_require _ .invalidRequest) fun _ => .act <|
    (actions_snsUpdate (by decide) _ _).andThen ((actions_snsWrites (snsAddressed_formatWrites _ _)).andThen
    ((actions_snsUpdate (by decide) _ _).andThen ((actions_stageFormat _ _ _ _).andThen (actions_stageResults _))))

theorem sequence_setGain {writes : StateWrite → Prop} : Sequence (namesArg .snsSetCtrl) writes (setGain psme) :=
  .check (checks_argS32 rfl) fun _ => .check (checks_argS32 rfl) fun _ => .check (checks_argS32 rfl) fun _ =>
  .check (checks_argS32 rfl) fun _ => .check (checks_require _ .invalidRequest) fun _ =>
  .check (checks_require _ .invalidRequest) fun _ => .act <|
    (actions_snsWrites (snsAddressed_gainWrites _)).andThen (.stageRes _ _)

theorem sequence_setExposure : Sequence (namesArg .snsSetCtrl) ExposureWrite (setExposure psme) := by
  refine .check (checks_argBool rfl) fun automatic => ?_
  have lineTime (t : Nat) : Actions ExposureWrite
      (if automatic then stageState (.totalLineTime (BitVec.ofNat 32 t)) else Cmd.ret ()) := by
    cases automatic
    · exact .ret ()
    · exact .stageState (.totalLineTime _)
  exact .check (checks_argS32 rfl) fun _ => .check (checks_argS32 rfl) fun _ => .check (checks_argS32 rfl) fun _ =>
    .check (checks_shutterCode _ _ _ _ _) fun t => .check (checks_require _ .invalidRequest) fun _ => .act <|
    (actions_snsWrites (snsAddressed_shutterWrites t)).andThen ((Actions.stageState (.aeMode _)).andThen
    ((lineTime t).andThen (.stageRes _ _)))

theorem sequence_setFlip {writes : StateWrite → Prop} (mask : Half) :
    Sequence (namesArg .snsSetCtrl) writes (setFlip psme mask) :=
  .check (checks_argBool rfl) fun _ => .act (actions_snsUpdate (by decide) _ _)

theorem sequence_snsSetCtrlBody : Sequence (namesArg .snsSetCtrl) ExposureWrite (snsSetCtrlBody psme) := by
  refine .check (checks_argU32 rfl) fun control => ?_
  split
  · exact sequence_setGain
  · exact sequence_setExposure
  · exact sequence_setFlip _
  · exact sequence_setFlip _
  · exact .check (f := Cmd.ret) (.reject .invalidRequest) fun _ => .act (.ret _)

/-- The sequence of every command: it checks, reading no argument but those the command names, then it acts, staging
only persistent writes that are the command's. -/
theorem sequence_bodyOf (i : Instr) : Sequence (namesArg i) (mayWrite i) (bodyOf i) := by
  cases i with
  | drpRead =>
    unfold bodyOf drpReadBody
    exact .check (checks_argIdx12 rfl) fun _ => .act <| (actions_drpRead _).bind fun _ => .stageRes _ _
  | drpWrite =>
    unfold bodyOf drpWriteBody
    exact .check (checks_argIdx12 rfl) fun _ => .check (checks_argU16 rfl) fun _ => .check (checks_argU16 rfl) fun _ =>
      .act (actions_drpWrite _ _ _)
  | pllSolve =>
    unfold bodyOf pllSolveBody
    exact .check (checks_argU32 rfl) fun _ => .check (checks_argU32 rfl) fun _ => .check (checks_solve _ _ _) fun _ =>
      .act (actions_stageResults _)
  | pllRoundRate =>
    unfold bodyOf pllRoundRateBody
    exact .check (checks_argU32 rfl) fun _ => .check (checks_argU32 rfl) fun _ => .check (checks_solve _ _ _) fun _ =>
      .act (.stageRes _ _)
  | pllFilter =>
    unfold bodyOf pllFilterBody
    exact .check (checks_argU32 rfl) fun _ => .act (.stageRes _ _)
  | pllLock =>
    unfold bodyOf pllLockBody
    exact .check (checks_argU32 rfl) fun _ => .act (.stageRes _ _)
  | pllFields =>
    unfold bodyOf pllFieldsBody
    exact .check (checks_argU32 rfl) fun _ => .check (checks_require _ .invalidRequest) fun _ =>
      .act (actions_stageResults _)
  | pllProgram =>
    unfold bodyOf pllProgramBody
    exact .check (checks_argU32 rfl) fun _ => .check (checks_argU32 rfl) fun _ => .check (checks_argU32 rfl) fun _ =>
      .check (checks_require _ .invalidRequest) fun _ => .check (checks_require _ .noFeasibleSolution) fun _ =>
      .act (actions_writeRows _ _)
  | pllSetRate =>
    unfold bodyOf pllSetRateBody
    exact .check (checks_argU32 rfl) fun _ => .check (checks_argU32 rfl) fun _ => .check (checks_solve _ _ _) fun _ =>
      .act <| (actions_writeRows _ _).andThen (actions_stageResults _)
  | clkEnable => exact .act (.write _ (by decide))
  | clkDisable => exact .act (.write _ (by decide))
  | clkSetParent =>
    unfold bodyOf clkSetParentBody
    exact .check (.arg 0 rfl) fun _ => .check (checks_require _ .invalidRequest) fun _ => .act (.write _ (by decide))
  | clkGetParent => exact .act <| (Actions.read (by decide) fun _ => by decide).bind fun _ => .stageRes _ _
  | pllRecalcRate =>
    unfold bodyOf pllRecalcRateBody
    exact .check (checks_argU32 rfl) fun _ => .act <| (actions_drpRead _).bind fun _ =>
      (actions_drpRead _).bind fun _ => (actions_drpRead _).bind fun _ => .stageRes _ _
  | snsWindowSolve =>
    unfold bodyOf snsWindowSolveBody
    exact .check (checks_argU32 rfl) fun _ => .check (checks_argU32 rfl) fun _ =>
      .look (fun _ => .act (actions_stageResults _)) fun _ _ => rfl
  | snsGainCode =>
    unfold bodyOf snsGainCodeBody
    exact .check (checks_argS32 rfl) fun _ => .check (checks_argS32 rfl) fun _ => .check (checks_argS32 rfl) fun _ =>
      .check (checks_argS32 rfl) fun _ => .check (checks_require _ .invalidRequest) fun _ => .act (.stageRes _ _)
  | snsShutterCode =>
    unfold bodyOf snsShutterCodeBody
    exact .check (checks_argBool rfl) fun _ => .check (checks_argS32 rfl) fun _ => .check (checks_argS32 rfl) fun _ =>
      .check (checks_argS32 rfl) fun _ => .check (checks_shutterCode _ _ _ _ _) fun _ => .act (.stageRes _ _)
  | snsSetCtrl => exact sequence_snsSetCtrlBody
  | snsGetFormat =>
    unfold bodyOf snsGetFormatBody
    exact .check (checks_argU32 rfl) fun _ => .check (checks_require _ .invalidRequest) fun _ =>
      .look (fun _ => .act (actions_stageResults _)) fun _ _ => rfl
  | snsSetFormat =>
    unfold bodyOf snsSetFormatBody
    exact .check (checks_argU32 rfl) fun _ => .check (checks_argU32 rfl) fun _ => .check (checks_argU32 rfl) fun _ =>
      .check (checks_require _ .invalidRequest) fun _ =>
      .look (fun _ => sequence_commitFormat _ _ _ _) fun _ _ => rfl

end Sys2Proof.Machine
end

section
/-! PROOFS. What every command keeps (10_state.md R25, R28 to R35; 60_exceptions.md R245, R246): how checks and actions
end, hence how a whole command ends, and the rules over all commands that follow from it. -/

namespace Sys2Proof.Machine

/-! ### How checks end -/

/-- Checks end with a value or a rejection, and touch the search's working values only. -/
inductive CheckEnd {α : Type} (s : State) : Res α → Prop
  | ok (a : α) (b : Option Best) : CheckEnd s (.ok a { s with search := b })
  | raise {e : Err} (h : e.Rejects) (b : Option Best) : CheckEnd s (.raise e { s with search := b })

theorem Checks.ends {names : Fin 8 → Bool} {α : Type} {c : Cmd α} (h : Checks names c) (s : State) :
    CheckEnd s (c s) := by
  induction h generalizing s with
  | ret a => exact .ok a s.search
  | reject h => exact .raise h s.search
  | arg i _ => exact .ok _ s.search
  | note b => exact .ok () (some b)
  | look _ _ ih => exact ih s s
  | @bind _ _ c f _ _ ihc ihf =>
    have hc := ihc s
    generalize hr : c s = r at hc
    cases hc with
    | ok a b =>
      rw [bind_of_ok hr]
      have hf := ihf a { s with search := b }
      generalize f a { s with search := b } = r at hf
      cases hf with
      | ok a' b' => exact .ok a' b'
      | raise h b' => exact .raise h b'
    | raise h b =>
      rw [bind_of_raise hr]
      exact .raise h b

/-! ### How an access ends -/

/-- Nothing is staged from `s` to `t`. -/
def SameStaged (s t : State) : Prop := t.stagedRes = s.stagedRes ∧ t.stagedState = s.stagedState

theorem SameStaged.trans {s t u : State} (h : SameStaged s t) (k : SameStaged t u) : SameStaged s u :=
  ⟨k.1.trans h.1, k.2.trans h.2⟩

/-- The reset's record of a transaction: not made, or made and unanswered (70_reset_and_hazards.md R270). -/
def Interrupted (p : Port) (addr : Word) (op : ChanOp) (made : List Transaction) : Prop :=
  made = [] ∨ made = [⟨p, addr, op, .unanswered⟩]

/-- How an access ends: answered, with the reply recorded; failed, with its error raised; or abandoned by a reset. -/
inductive AccessEnd {α : Type} (p : Port) (addr : Word) (op : ChanOp) (reply : α → Reply) (s : State) : Res α → Prop
  | ok {a : α} {t : State} (ht : t.trace = s.trace ++ [⟨p, addr, op, reply a⟩]) (hs : SameStaged s t) :
      AccessEnd p addr op reply s (.ok a t)
  | failed {t : State} (ht : t.trace = s.trace ++ [⟨p, addr, op, .ioError⟩]) :
      AccessEnd p addr op reply s (.raise (.ioError p addr) t)
  | abandoned {t : State} {made : List Transaction} (ht : t.trace = s.trace ++ made) (hm : Interrupted p addr op made) :
      AccessEnd p addr op reply s (.reset t)

theorem takeAnswer_sameStaged (s : State) : SameStaged s (takeAnswer s).2 := by
  unfold takeAnswer
  split <;> exact ⟨rfl, rfl⟩

theorem inFlight_ends (p : Port) (addr : Word) (op : ChanOp) (s : State) :
    AccessEnd p addr op (replyOf op) s (inFlight p addr op s) := by
  have h := landInFlight_landsUnheard s
  rw [inFlight]
  cases hl : landInFlight s with
  | go t =>
    rw [hl] at h
    obtain ⟨hu, hstaged⟩ := h
    exact .ok (congrArg (· ++ _) hu.1) (SameStaged.trans hstaged (takeAnswer_sameStaged t))
  | reset t =>
    rw [hl] at h
    exact .abandoned (congrArg (· ++ _) h.1) (.inr rfl)

/-- A transaction is answered, by a value or by IoError, or abandoned by a reset (20_memory.md R52). -/
theorem transact_ends (p : Port) (addr : Word) (op : ChanOp) (s : State) :
    AccessEnd p addr op (replyOf op) s (transact p addr op s) := by
  have h := landBusy_landsUnheard s.inputs s
  cases hl : landBusy s.inputs s with
  | go t =>
    rw [hl] at h
    obtain ⟨hu, hstaged⟩ := h
    have hsettle : settle s = .ok () t := by rw [settle, hl]
    rw [transact, andThen_of_ok hsettle]
    cases hi : inFlight p addr op t with
    | ok a v =>
      cases hi ▸ inFlight_ends p addr op t with
      | ok ht hs => exact .ok (hu.1 ▸ ht) (SameStaged.trans hstaged hs)
    | raise e v =>
      cases hi ▸ inFlight_ends p addr op t with
      | failed ht => exact .failed (hu.1 ▸ ht)
    | reset v =>
      cases hi ▸ inFlight_ends p addr op t with
      | abandoned ht hm => exact .abandoned (hu.1 ▸ ht) hm
  | reset t =>
    rw [hl] at h
    have hsettle : settle s = .reset t := by rw [settle, hl]
    rw [transact, andThen_of_reset hsettle]
    exact .abandoned (made := []) (h.1.trans (List.append_nil _).symm) (.inl rfl)

/-- An access raises the error that its own transaction was answered with (20_memory.md R53, R54). -/
theorem AccessEnd.bind {α : Type} {p : Port} {addr : Word} {op : ChanOp} {reply : α → Reply} {s : State}
    {c : Cmd Answer} {f : Answer → Cmd α} (h : AccessEnd p addr op (replyOf op) s (c s))
    (herror : f .ioError = raise (.ioError p addr))
    (hvalue : ∀ v, ∃ a, f (.value v) = Cmd.ret a ∧ reply a = replyOf op (.value v)) :
    AccessEnd p addr op reply s (c.bind f s) := by
  generalize hr : c s = r at h
  cases h with
  | @ok a t ht hs =>
    rw [bind_of_ok hr]
    cases a with
    | ioError => rw [herror]; exact .failed ht
    | value v =>
      obtain ⟨a, hf, ha⟩ := hvalue v
      rw [hf]
      exact .ok (ha ▸ ht) hs
  | failed ht => rw [bind_of_raise hr]; exact .failed ht
  | abandoned ht hm => rw [bind_of_reset hr]; exact .abandoned ht hm

theorem memRead_ends (p : Port) (addr : Word) (s : State) : AccessEnd p addr .read Reply.value s (memRead p addr s) :=
  (transact_ends p addr .read s).bind rfl fun v => ⟨v, rfl, rfl⟩

theorem memWrite_ends (p : Port) (addr v : Word) (s : State) :
    AccessEnd p addr (.write v) (fun _ => Reply.done) s (memWrite p addr v s) :=
  (transact_ends p addr (.write v) s).bind rfl fun _ => ⟨(), rfl, rfl⟩

/-! ### How a busy wait ends -/

/-- The reads of DRP_STATUS that answered these values. -/
def statusReads (bs : List Word) : List Transaction := bs.map fun v => ⟨.clk, 0x74#32, .read, .value v⟩

@[simp] theorem statusReads_nil : statusReads [] = [] := rfl

@[simp] theorem statusReads_cons (b : Word) (bs : List Word) :
    statusReads (b :: bs) = ⟨.clk, 0x74#32, .read, .value b⟩ :: statusReads bs := rfl

@[simp] theorem statusReads_length (bs : List Word) : (statusReads bs).length = bs.length := List.length_map _

/-- These status words say that the interface is busy (41_drp.md R100). -/
def AllBusy (bs : List Word) : Prop := ∀ b ∈ bs, b.getLsbD 16 = true

theorem AllBusy.cons {b : Word} {bs : List Word} (hb : b.getLsbD 16 = true) (h : AllBusy bs) : AllBusy (b :: bs) :=
  List.forall_mem_cons.mpr ⟨hb, h⟩

/-- How the polls of a busy wait with `n` reads left end: with the first status that is not busy, with Timeout after `n`
busy ones, with a read that failed, or by a reset (41_drp.md R100). -/
inductive PollEnd (n : Nat) (s : State) : Res Half → Prop
  | ok {v : Half} {t : State} {bs : List Word} {last : Word} (hn : bs.length < n) (hb : AllBusy bs)
      (hl : last.getLsbD 16 = false) (ht : t.trace = s.trace ++ statusReads (bs ++ [last])) (hs : SameStaged s t) :
      PollEnd n s (.ok v t)
  | timeout {t : State} {bs : List Word} (hn : bs.length = n) (hb : AllBusy bs)
      (ht : t.trace = s.trace ++ statusReads bs) : PollEnd n s (.raise (.timeout .clk 0x74#32) t)
  | failed {t : State} {bs : List Word} (hn : bs.length < n) (hb : AllBusy bs)
      (ht : t.trace = s.trace ++ (statusReads bs ++ [⟨.clk, 0x74#32, .read, .ioError⟩])) :
      PollEnd n s (.raise (.ioError .clk 0x74#32) t)
  | abandoned {t : State} {bs : List Word} {made : List Transaction} (hn : bs.length < n) (hb : AllBusy bs)
      (ht : t.trace = s.trace ++ (statusReads bs ++ made)) (hm : Interrupted .clk 0x74#32 .read made) :
      PollEnd n s (.reset t)

/-- One busy read before the polls. -/
theorem PollEnd.cons {n : Nat} {s t : State} {b : Word} {r : Res Half} (hb : b.getLsbD 16 = true)
    (ht : t.trace = s.trace ++ statusReads [b]) (hs : SameStaged s t) (h : PollEnd n t r) : PollEnd (n + 1) s r := by
  have later {u : State} {made : List Transaction} (hu : u.trace = t.trace ++ made) :
      u.trace = s.trace ++ (⟨.clk, 0x74#32, .read, .value b⟩ :: made) := by
    rw [hu, ht, List.append_assoc]; rfl
  cases h with
  | @ok _ _ bs _ hn hbs hl hu ku =>
    exact .ok (bs := b :: bs) (Nat.succ_lt_succ hn) (hbs.cons hb) hl (later hu) (hs.trans ku)
  | @timeout _ bs hn hbs hu => exact .timeout (bs := b :: bs) (congrArg Nat.succ hn) (hbs.cons hb) (later hu)
  | @failed _ bs hn hbs hu => exact .failed (bs := b :: bs) (Nat.succ_lt_succ hn) (hbs.cons hb) (later hu)
  | @abandoned _ bs _ hn hbs hu hm =>
    exact .abandoned (bs := b :: bs) (Nat.succ_lt_succ hn) (hbs.cons hb) (later hu) hm

/-- The busy-wait count is no part of it. -/
theorem PollEnd.of_counted {n k : Nat} {s : State} {r : Res Half} (h : PollEnd n (counted k s) r) : PollEnd n s r := by
  cases h with
  | ok hn hb hl ht hs => exact .ok hn hb hl ht hs
  | timeout hn hb ht => exact .timeout hn hb ht
  | failed hn hb ht => exact .failed hn hb ht
  | abandoned hn hb ht hm => exact .abandoned hn hb ht hm

theorem pollLoop_ends (n : Nat) (s : State) : PollEnd n s (pollLoop n s) := by
  induction n generalizing s with
  | zero => exact .timeout (bs := []) rfl nofun (List.append_nil _).symm
  | succ n ih =>
    have h := memRead_ends .clk drpStatus (counted (s.busyCount + 1) s)
    rw [pollLoop, andThen_of_ok (countRead_eq s)]
    refine PollEnd.of_counted (k := s.busyCount + 1) ?_
    generalize hr : memRead .clk drpStatus (counted (s.busyCount + 1) s) = r at h
    cases h with
    | @ok v t ht hs =>
      rw [bind_of_ok hr]
      split
      next hv => exact (ih t).cons hv ht hs
      next hv => exact .ok (bs := []) (last := v) (Nat.succ_pos n) nofun (Bool.eq_false_iff.mpr hv) ht hs
    | failed ht =>
      rw [bind_of_raise hr]
      exact .failed (bs := []) (Nat.succ_pos n) nofun ht
    | abandoned ht hm =>
      rw [bind_of_reset hr]
      exact .abandoned (bs := []) (Nat.succ_pos n) nofun ht hm

theorem busyWait_ends (s : State) : PollEnd 10000 s (busyWait s) :=
  PollEnd.of_counted (pollLoop_ends drpBudget (counted 0 s))

/-! ### How actions end -/

/-- Actions stage writes of their kind only, and raise channel errors only. -/
def ActionEnd {α : Type} (writes : StateWrite → Prop) (s : State) : Res α → Prop
  | .ok _ t => ∃ ws, t.stagedState = s.stagedState ++ ws ∧ ∀ w ∈ ws, writes w
  | .raise e _ => e.OfChannel
  | .reset _ => True

theorem actionEnd_of_sameStaged {α : Type} {writes : StateWrite → Prop} {s t : State}
    (h : t.stagedState = s.stagedState) (a : α) : ActionEnd writes s (.ok a t) :=
  ⟨[], h.trans (List.append_nil _).symm, nofun⟩

theorem AccessEnd.actionEnd {α : Type} {p : Port} {addr : Word} {op : ChanOp} {reply : α → Reply} {s : State} {r : Res α}
    (h : AccessEnd p addr op reply s r) (ha : errRecord p addr ∈ channelRecords) (writes : StateWrite → Prop) :
    ActionEnd writes s r := by
  cases h with
  | ok _ hs => exact actionEnd_of_sameStaged hs.2 _
  | failed _ => exact .ioError p addr ha
  | abandoned _ _ => exact trivial

theorem PollEnd.actionEnd {n : Nat} {s : State} {r : Res Half} (h : PollEnd n s r) (writes : StateWrite → Prop) :
    ActionEnd writes s r := by
  cases h with
  | ok _ _ _ _ hs => exact actionEnd_of_sameStaged hs.2 _
  | timeout _ _ _ => exact .timeout
  | failed _ _ _ => exact .ioError .clk 0x74#32 (by decide)
  | abandoned _ _ _ _ => exact trivial

theorem Actions.ends {writes : StateWrite → Prop} {α : Type} {c : Cmd α} (h : Actions writes c) (s : State) :
    ActionEnd writes s (c s) := by
  induction h generalizing s with
  | ret a => exact actionEnd_of_sameStaged rfl a
  | read hr _ => exact (memRead_ends _ _ s).actionEnd hr writes
  | write v hr => exact (memWrite_ends _ _ v s).actionEnd hr writes
  | wait => exact (busyWait_ends s).actionEnd writes
  | stageRes i v => exact actionEnd_of_sameStaged rfl ()
  | @stageState w h => exact ⟨[w], rfl, List.forall_mem_singleton.mpr h⟩
  | @bind _ _ c f _ _ ihc ihf =>
    have hc := ihc s
    cases hr : c s with
    | ok a t =>
      rw [hr] at hc
      rw [bind_of_ok hr]
      obtain ⟨ws, hws, hwrites⟩ := hc
      have hf := ihf a t
      cases hft : f a t with
      | ok b u =>
        rw [hft] at hf
        obtain ⟨vs, hvs, kwrites⟩ := hf
        exact ⟨ws ++ vs, by rw [hvs, hws, List.append_assoc], List.forall_mem_append.mpr ⟨hwrites, kwrites⟩⟩
      | raise e u => rw [hft] at hf; exact hf
      | reset u => exact trivial
    | raise e t => rw [bind_of_raise hr]; rw [hr] at hc; exact hc
    | reset t => rw [bind_of_reset hr]; exact trivial

/-! ### How a sequence ends -/

/-- A sequence stages writes of its kind only; if it raises, it raised a rejection before any access, or a channel
error. -/
def SequenceEnd (writes : StateWrite → Prop) (s : State) : Res Unit → Prop
  | .ok _ t => ∃ ws, t.stagedState = s.stagedState ++ ws ∧ ∀ w ∈ ws, writes w
  | .raise e t => e.Rejects ∧ Unheard s t ∨ e.OfChannel
  | .reset _ => True

theorem ActionEnd.sequenceEnd {writes : StateWrite → Prop} {s : State} {r : Res Unit} (h : ActionEnd writes s r) :
    SequenceEnd writes s r := by
  cases r with
  | ok a t => exact h
  | raise e t => exact .inr h
  | reset t => exact trivial

theorem Sequence.ends {names : Fin 8 → Bool} {writes : StateWrite → Prop} {c : Cmd Unit} (h : Sequence names writes c)
    (s : State) : SequenceEnd writes s (c s) := by
  induction h generalizing s with
  | act h => exact (h.ends s).sequenceEnd
  | look _ _ ih => exact ih s s
  | @check _ c f hc _ ih =>
    have h := hc.ends s
    generalize hr : c s = r at h
    cases h with
    | ok a b =>
      rw [bind_of_ok hr]
      exact ih a { s with search := b }
    | raise h b =>
      rw [bind_of_raise hr]
      exact .inl ⟨h, rfl, rfl⟩

/-! ### How a command ends -/

/-- How a command that `exec` runs from `s` ends: completed after a sequence that kept the frame, without an error or
with one, or abandoned by a reset. -/
inductive CommandEnd (i : Instr) (s : State) : State → Prop
  | ok {u t : State} (hl : landedState s = some u) (hb : bodyOf i u = .ok () t) (hf : Frame (beginRun s) t)
      (hw : ∀ w ∈ t.stagedState, mayWrite i w) : CommandEnd i s (completeOk t)
  | raise {u t : State} {e : Err} (hl : landedState s = some u) (hb : bodyOf i u = .raise e t)
      (hf : Frame (beginRun s) t) (he : e.Rejects ∧ Unheard s t ∨ e.OfChannel) : CommandEnd i s (completeErr e t)
  | abandoned {t : State} (h : Abandoned (beginRun s) t) : CommandEnd i s t

theorem runCommand_ends (i : Instr) (s : State) : CommandEnd i s (runCommand (bodyOf i) s) := by
  obtain ⟨u, hl, hfu, hu⟩ | ⟨t, ht, -, hrun⟩ := landed_or_abandoned s
  · have hf := (framed_bodyOf i).keeps u hfu.phase
    have hends := (sequence_bodyOf i).ends u
    cases hb : bodyOf i u with
    | ok a t =>
      rw [hb] at hf hends
      obtain ⟨ws, hws, hwrites⟩ := hends
      rw [runCommand_ok hl hb]
      refine .ok hl hb (hfu.trans hf) ?_
      rw [hws, (nothingStaged_of_landed hl).2]
      exact hwrites
    | raise e t =>
      rw [hb] at hf hends
      rw [runCommand_raise hl hb]
      exact .raise hl hb (hfu.trans hf) (hends.imp_left fun ⟨he, hut⟩ => ⟨he, hu.trans hut⟩)
    | reset t =>
      rw [hb] at hf
      rw [runCommand_reset hl hb]
      exact .abandoned (hfu.abandoned hf)
  · rw [hrun]
    exact .abandoned ht

theorem exec_ends {i : Instr} {s t : State} (h : exec i s = .next t) : CommandEnd i s t := by
  obtain rfl : runCommand (bodyOf i) s = t := by simpa [exec_eq] using h
  exact runCommand_ends i s

/-- A completion without error changes no field but those it sets and those of staged writes (60_exceptions.md R246). -/
theorem completeOk_eq (t : State) :
    completeOk t = { afterOk t (completeOk t).res with
      rect := (completeOk t).rect, xskip := (completeOk t).xskip, yskip := (completeOk t).yskip,
      totalLineTime := (completeOk t).totalLineTime, aeMode := (completeOk t).aeMode } := by
  rw [completeOk, foldl_commitState_keeps]
  rfl

/-- What each staged write leaves alone, all of them leave alone. -/
theorem foldl_commitState_invariant {β : Type} (f : State → β) {ws : List StateWrite}
    (h : ∀ w ∈ ws, ∀ s, f (commitState s w) = f s) (s : State) : f (ws.foldl commitState s) = f s := by
  induction ws generalizing s with
  | nil => rfl
  | cons w ws ih =>
    obtain ⟨hw, hws⟩ := List.forall_mem_cons.mp h
    rw [List.foldl_cons, ih hws, hw]

theorem SamePersistent.rect {s t : State} (h : SamePersistent s t) : t.rect = s.rect := h.1
theorem SamePersistent.xskip {s t : State} (h : SamePersistent s t) : t.xskip = s.xskip := h.2.1
theorem SamePersistent.yskip {s t : State} (h : SamePersistent s t) : t.yskip = s.yskip := h.2.2.1
theorem SamePersistent.totalLineTime {s t : State} (h : SamePersistent s t) : t.totalLineTime = s.totalLineTime :=
  h.2.2.2.1
theorem SamePersistent.ySkipTop {s t : State} (h : SamePersistent s t) : t.ySkipTop = s.ySkipTop := h.2.2.2.2.1
theorem SamePersistent.aeMode {s t : State} (h : SamePersistent s t) : t.aeMode = s.aeMode := h.2.2.2.2.2

/-! ### The rules over all commands -/

/-- Settles O52: a completion and a reset both leave the engine IDLE with no hidden state, a completion keeps the
command's word and latch, and a reset was among the inputs. -/
theorem everyCommandEndsIdle : Obligations.EveryCommandEndsIdle := by
  intro i s
  refine ⟨runCommand (bodyOf i) s, exec_eq i s, ?_⟩
  generalize hr : runCommand (bodyOf i) s = t
  cases hr ▸ runCommand_ends i s with
  | @ok _ t _ _ hf _ =>
    rw [completeOk_eq]
    exact ⟨rfl, ⟨rfl, rfl, rfl, rfl⟩, .inl ⟨rfl, hf.cmd, hf.latch, hf.opcode⟩⟩
  | raise _ _ hf _ => exact ⟨rfl, ⟨rfl, rfl, rfl, rfl⟩, .inl ⟨rfl, hf.cmd, hf.latch, hf.opcode⟩⟩
  | abandoned h =>
    obtain ⟨u, -, rfl, hin⟩ := h
    exact ⟨rfl, ⟨rfl, rfl, rfl, rfl⟩, .inr ⟨rfl, hin⟩⟩

/-- Settles O53: a command that raised an error discards what it staged; one that ends otherwise reports no error. -/
theorem errorLeavesResultsAndRecord : Obligations.ErrorLeavesResultsAndRecord := by
  intro i s t h herr
  cases exec_ends h with
  | ok _ _ _ _ => exact absurd rfl herr
  | raise _ _ hf _ => exact ⟨hf.res, hf.samePersistent⟩
  | abandoned h =>
    obtain ⟨u, -, rfl, -⟩ := h
    exact absurd rfl herr

/-- Settles O54: a rejection is raised by a check, and no check makes an access. -/
theorem rejectionsMakeNoTransaction : Obligations.RejectionsMakeNoTransaction := by
  intro i s t h herr
  cases exec_ends h with
  | ok _ _ _ _ => exact absurd herr (by rintro (h | h) <;> cases h)
  | raise _ _ _ he =>
    obtain ⟨hrej, htrace, hdraws⟩ | hch := he
    · exact ⟨htrace, hdraws, by cases hrej <;> rfl⟩
    · exact absurd herr (by cases hch <;> rintro (h | h) <;> cases h)
  | abandoned h =>
    obtain ⟨u, -, rfl, -⟩ := h
    exact absurd herr (by rintro (h | h) <;> cases h)

/-- What no staged write of a command touches, its completion leaves as it was. -/
theorem completeOk_keeps {β : Type} (f : State → β) {i : Instr} {s t : State} (hf : Frame (beginRun s) t)
    (hw : ∀ w ∈ t.stagedState, mayWrite i w) (hwrite : ∀ w, mayWrite i w → ∀ s, f (commitState s w) = f s)
    (hframe : ∀ {s t : State}, SamePersistent s t → f t = f s) : f (completeOk t) = f s :=
  calc f (completeOk t)
    _ = f (t.stagedState.foldl commitState { t with res := t.stagedRes.foldl commitRes t.res }) :=
      hframe ⟨rfl, rfl, rfl, rfl, rfl, rfl⟩
    _ = f { t with res := t.stagedRes.foldl commitRes t.res } :=
      foldl_commitState_invariant f (fun w h => hwrite w (hw w h)) _
    _ = f s := hframe hf.samePersistent

/-- Only two commands stage persistent writes (10_state.md R28 to R32). -/
theorem mayWrite_cases {i : Instr} {w : StateWrite} (h : mayWrite i w) :
    i = .snsSetFormat ∧ FormatWrite w ∨ i = .snsSetCtrl ∧ ExposureWrite w := by
  cases i with
  | snsSetFormat => exact .inl ⟨rfl, h⟩
  | snsSetCtrl => exact .inr ⟨rfl, h⟩
  | _ => exact h.elim

/-- A command that is no format commit leaves what an exposure write leaves. -/
theorem mayWrite_keeps_of_ne_setFormat {β : Type} {f : State → β} {i : Instr} (hi : i ≠ .snsSetFormat)
    (h : ∀ w, ExposureWrite w → ∀ s, f (commitState s w) = f s) (w : StateWrite) (hw : mayWrite i w) (s : State) :
    f (commitState s w) = f s := by
  obtain ⟨hi', -⟩ | ⟨-, hw⟩ := mayWrite_cases hw
  · exact absurd hi' hi
  · exact h w hw s

/-- A command that is no sensor control leaves what a format commit leaves. -/
theorem mayWrite_keeps_of_ne_setCtrl {β : Type} {f : State → β} {i : Instr} (hi : i ≠ .snsSetCtrl)
    (h : ∀ w, FormatWrite w → ∀ s, f (commitState s w) = f s) (w : StateWrite) (hw : mayWrite i w) (s : State) :
    f (commitState s w) = f s := by
  obtain ⟨-, hw⟩ | ⟨hi', -⟩ := mayWrite_cases hw
  · exact h w hw s
  · exact absurd hi' hi

/-- Settles O57: a completion writes what the command staged, and a command stages only writes of its kind. -/
theorem onlyNamedCommandsChangeTheRecord : Obligations.OnlyNamedCommandsChangeTheRecord := by
  intro i s t h hdone
  cases exec_ends h with
  | ok _ _ hf hw =>
    refine ⟨fun hi => ⟨?rect, ?xskip, ?yskip⟩, fun hi hi' => ?lineTime, fun hi => ?mode, ?skipTop⟩
    case rect =>
      exact completeOk_keeps (·.rect) hf hw
        (mayWrite_keeps_of_ne_setFormat hi fun _ h _ => by cases h <;> rfl) SamePersistent.rect
    case xskip =>
      exact completeOk_keeps (·.xskip) hf hw
        (mayWrite_keeps_of_ne_setFormat hi fun _ h _ => by cases h <;> rfl) SamePersistent.xskip
    case yskip =>
      exact completeOk_keeps (·.yskip) hf hw
        (mayWrite_keeps_of_ne_setFormat hi fun _ h _ => by cases h <;> rfl) SamePersistent.yskip
    case lineTime =>
      refine completeOk_keeps (·.totalLineTime) hf hw (fun w h => ?_) SamePersistent.totalLineTime
      obtain ⟨h, -⟩ | ⟨h, -⟩ := mayWrite_cases h
      · exact absurd h hi
      · exact absurd h hi'
    case mode =>
      exact completeOk_keeps (·.aeMode) hf hw
        (mayWrite_keeps_of_ne_setCtrl hi fun _ h _ => by cases h <;> rfl) SamePersistent.aeMode
    case skipTop =>
      exact completeOk_keeps (·.ySkipTop) hf hw (fun w _ _ => by cases w <;> rfl) SamePersistent.ySkipTop
  | raise _ _ hf _ =>
    exact ⟨fun _ => ⟨hf.rect, hf.xskip, hf.yskip⟩, fun _ _ => hf.totalLineTime, fun _ => hf.aeMode, hf.ySkipTop⟩
  | abandoned h =>
    obtain ⟨u, -, rfl, -⟩ := h
    exact absurd hdone Bool.false_ne_true

end Sys2Proof.Machine
end

section
/-! PROOFS. The state invariant (10_state.md R26 to R35, 44_sensor_window.md R189): reset meets it, and every step keeps
it. In IDLE a step is a host access or drops an input; in RUN a command completes, and what it may have staged is
valid, or a reset abandons it. -/

namespace Sys2Proof.Machine

/-! ### The invariant and the fields it speaks of -/

/-- The part of the invariant that speaks of the persistent sensor configuration. -/
structure RecordInv (s : State) : Prop where
  rect : s.rect.Valid
  xskip : SkipValid s.xskip
  yskip : SkipValid s.yskip
  skipTop : s.ySkipTop = 0#16

theorem StateInv.recordInv {s : State} (h : StateInv s) : RecordInv s := by
  obtain ⟨hx1, hx8, hy1, hy8⟩ := h.skips
  exact ⟨⟨h.extents, h.origin⟩, ⟨hx1, hx8⟩, ⟨hy1, hy8⟩, h.skipTop⟩

theorem RecordInv.congr {s t : State} (h : RecordInv s) (hp : SamePersistent s t) : RecordInv t :=
  ⟨hp.rect ▸ h.rect, hp.xskip ▸ h.xskip, hp.yskip ▸ h.yskip, hp.ySkipTop ▸ h.skipTop⟩

/-- A state whose command has completed meets the invariant when its outcome and its record do. -/
theorem stateInv_of_completed {s : State} (hop : s.opcode = s.cmd.extractLsb' 0 8) (hh : HiddenEmpty s)
    (hdone : s.done = true) (hphase : s.phase = .idle) (hfits : RecordFits s.err s.errInfo) (hr : RecordInv s) :
    StateInv s where
  opcode := hop
  hidden := hh
  running hrun := absurd (hphase.symm.trans hrun) nofun
  undone hundone := absurd (hdone.symm.trans hundone) nofun
  record := hfits
  skips := ⟨hr.xskip.1, hr.xskip.2, hr.yskip.1, hr.yskip.2⟩
  extents := hr.rect.1
  origin := hr.rect.2
  skipTop := hr.skipTop

/-- The invariant does not speak of ARG, OVERRUN and the model's own records. -/
theorem StateInv.congr {s t : State} (h : StateInv s)
    (ht : t = { s with arg := t.arg, overrun := t.overrun, hostReads := t.hostReads, inputs := t.inputs }) :
    StateInv t := by
  rw [ht]
  exact ⟨h.opcode, h.hidden, h.running, h.undone, h.record, h.skips, h.extents, h.origin, h.skipTop⟩

/-! ### Reset -/

/-- Settles O60. -/
theorem resetMeetsTheInvariant : Obligations.ResetMeetsTheInvariant where
  opcode := by decide
  hidden := ⟨rfl, rfl, rfl, rfl⟩
  running := nofun
  undone _ := rfl
  record := rfl
  skips := by decide
  extents := by decide
  origin := by decide
  skipTop := rfl

/-- The state after a reset meets the invariant, whatever records the model keeps (70_reset_and_hazards.md R270). -/
theorem stateInv_freshAfter (s : State) (rest : List Input) : StateInv (freshAfter s rest) := by
  have h : StateInv State.reset := resetMeetsTheInvariant
  exact ⟨h.opcode, h.hidden, h.running, h.undone, h.record, h.skips, h.extents, h.origin, h.skipTop⟩

/-! ### A step in IDLE -/

/-- Acceptance clears the outcome and takes the word's opcode (10_state.md R26). -/
theorem stateInv_accept {s : State} (h : StateInv s) (w : Word) : StateInv (accept w s) where
  opcode := rfl
  hidden := h.hidden
  running _ := rfl
  undone _ := rfl
  record := rfl
  skips := h.skips
  extents := h.extents
  origin := h.origin
  skipTop := h.skipTop

theorem stateInv_hostAccess {s : State} (h : StateInv s) (a : HostAccess) : StateInv (hostAccess a s) := by
  obtain ⟨-, w, hw⟩ | heq := hostAccess_cases a s
  · rw [hw]; exact stateInv_accept h w
  · exact h.congr (by rw [hostAccess_inputs]; exact heq)

/-- A host step that goes on makes the access. -/
theorem hostStep_next {a : HostAccess} {s t : State} (h : hostStep a s = .next t) : t = hostAccess a s := by
  unfold hostStep at h
  split_ifs at h
  cases h
  rfl

theorem stateInv_idleStep {s t : State} (h : StateInv s) (ht : idleStep s = .next t) : StateInv t := by
  have drop (rest : List Input) : StateInv { s with inputs := rest } := h.congr rfl
  unfold idleStep at ht
  split at ht
  case h_1 => cases ht; exact h
  case h_2 a rest _ => rw [hostStep_next ht]; exact stateInv_hostAccess (drop rest) a
  case h_3 a rest _ => rw [hostStep_next ht]; exact stateInv_hostAccess (drop rest) a
  case h_4 rest _ => cases ht; exact drop rest
  case h_5 rest _ => cases ht; exact drop rest
  case h_6 rest _ => cases ht; exact stateInv_freshAfter s rest

/-! ### A step in RUN -/

/-- A write that a command may stage is valid (44_sensor_window.md R189). -/
theorem recordInv_commitState {i : Instr} {w : StateWrite} (hw : mayWrite i w) {s : State} (h : RecordInv s) :
    RecordInv (commitState s w) := by
  obtain ⟨-, hw⟩ | ⟨-, hw⟩ := mayWrite_cases hw
  · cases hw with
    | rect hr => exact ⟨hr, h.xskip, h.yskip, h.skipTop⟩
    | xskip hv => exact ⟨h.rect, hv, h.yskip, h.skipTop⟩
    | yskip hv => exact ⟨h.rect, h.xskip, hv, h.skipTop⟩
    | totalLineTime v => exact ⟨h.rect, h.xskip, h.yskip, h.skipTop⟩
  · cases hw <;> exact ⟨h.rect, h.xskip, h.yskip, h.skipTop⟩

theorem recordInv_foldl_commitState {i : Instr} {ws : List StateWrite} (hws : ∀ w ∈ ws, mayWrite i w) {s : State}
    (h : RecordInv s) : RecordInv (ws.foldl commitState s) := by
  induction ws generalizing s with
  | nil => exact h
  | cons w ws ih =>
    obtain ⟨hw, hws⟩ := List.forall_mem_cons.mp hws
    exact ih hws (recordInv_commitState hw h)

/-- OPCODE and CMD are not touched by a sequence. -/
theorem Frame.opcode_eq {s t : State} (hf : Frame (beginRun s) t) (h : StateInv s) :
    t.opcode = t.cmd.extractLsb' 0 8 := by
  rw [hf.opcode, hf.cmd]
  exact h.opcode

/-- The end of a command meets the invariant if its start did. -/
theorem stateInv_of_commandEnd {i : Instr} {s t : State} (h : StateInv s) (ht : CommandEnd i s t) : StateInv t := by
  cases ht with
  | @ok _ t _ _ hf hw =>
    have hr : RecordInv (completeOk t) :=
      (recordInv_foldl_commitState (s := { t with res := t.stagedRes.foldl commitRes t.res }) hw
        (h.recordInv.congr hf.samePersistent)).congr ⟨rfl, rfl, rfl, rfl, rfl, rfl⟩
    rw [completeOk_eq] at hr ⊢
    exact stateInv_of_completed (hf.opcode_eq h) ⟨rfl, rfl, rfl, rfl⟩ rfl rfl rfl hr
  | @raise _ t e _ _ hf he =>
    have hfits : RecordFits e.errCode e.info := he.elim (fun h => h.1.recordFits) Err.OfChannel.recordFits
    have hr : RecordInv (completeErr e t) := h.recordInv.congr hf.samePersistent
    exact stateInv_of_completed (hf.opcode_eq h) ⟨rfl, rfl, rfl, rfl⟩ rfl rfl hfits hr
  | abandoned ht =>
    obtain ⟨u, -, rfl, -⟩ := ht
    exact stateInv_freshAfter u u.inputs

/-- An undecodable word ends in a state that meets the invariant: it completes with IllegalCommand, from the state the
landed inputs leave, or a reset abandons it (60_exceptions.md R244). -/
theorem stateInv_execIllegal {s : State} (h : StateInv s) :
    StateInv (runCommand (raise .illegalCommand) s) := by
  obtain ⟨u, hl, hf, -⟩ | ⟨t, ht, -, hrun⟩ := landed_or_abandoned s
  · have hb : (raise .illegalCommand : Cmd Unit) u = .raise .illegalCommand u := rfl
    rw [runCommand_raise hl hb]
    exact stateInv_of_completed (hf.opcode_eq h) ⟨rfl, rfl, rfl, rfl⟩ rfl rfl rfl
      (h.recordInv.congr hf.samePersistent)
  · rw [hrun]
    obtain ⟨u, -, rfl, -⟩ := ht
    exact stateInv_freshAfter u u.inputs

/-- Settles O59: in IDLE by the input that the step takes, in RUN by how a command ends. -/
theorem stepKeepsTheInvariant : Obligations.StepKeepsTheInvariant := by
  intro s t h ht
  unfold step at ht
  split at ht
  next => exact stateInv_idleStep h ht
  next =>
    split at ht
    next => exact stateInv_of_commandEnd h (exec_ends ht)
    next => cases ht; exact stateInv_execIllegal h

end Sys2Proof.Machine
end

section
/-! PROOFS. Arguments a command does not name are ignored (30_encoding.md R71, 70_reset_and_hazards.md R287): a sequence
run with another latch, equal in the named arguments, ends as before but for that latch. -/

namespace Sys2Proof.Machine

/-- The state with this latch. -/
def State.relatch (s : State) (l : Vector Word 8) : State := { s with latch := l }

/-- The end of a part of a sequence, with this latch; after a reset it is the reset's own. -/
def Res.relatch {α : Type} (l : Vector Word 8) : Res α → Res α
  | .ok a t => .ok a (t.relatch l)
  | .raise e t => .raise e (t.relatch l)
  | .reset t => .reset t

/-- What landing inputs leave, with this latch. -/
def Landing.relatch (l : Vector Word 8) : Landing → Landing
  | .go t => .go (t.relatch l)
  | .reset t => .reset t

/-- The latch `l` holds the same arguments as `m` where `names` says. -/
def AgreesOn (names : Fin 8 → Bool) (m l : Vector Word 8) : Prop := ∀ i, names i = true → l.get i = m.get i

/-- A running part of a sequence ends as before, but for the latch, when the latch is changed outside `names`. -/
structure IgnoresLatch {α : Type} (names : Fin 8 → Bool) (c : Cmd α) : Prop where
  relatch : ∀ s l, s.phase = .run → AgreesOn names s.latch l → c (s.relatch l) = (c s).relatch l

/-- Sequencing, where the first part keeps the frame, so the latch and the phase. -/
theorem IgnoresLatch.bind {α β : Type} {names : Fin 8 → Bool} {c : Cmd α} {f : α → Cmd β} (hframe : Framed c)
    (hc : IgnoresLatch names c) (hf : ∀ a, IgnoresLatch names (f a)) : IgnoresLatch names (c.bind f) := by
  refine ⟨fun s l hs hl => ?_⟩
  have h := hc.relatch s l hs hl
  have hk := hframe.keeps s hs
  cases hr : c s with
  | ok a t =>
    rw [hr] at h hk
    have hrun : t.phase = .run := (Frame.phase hk).trans hs
    have hlatch : AgreesOn names t.latch l := fun i hi => by rw [Frame.latch hk]; exact hl i hi
    rw [bind_of_ok hr, bind_of_ok h]
    exact (hf a).relatch t l hrun hlatch
  | raise e t => rw [hr] at h; rw [bind_of_raise hr, bind_of_raise h]; rfl
  | reset t => rw [hr] at h; rw [bind_of_reset hr, bind_of_reset h]; rfl

theorem IgnoresLatch.andThen {α β : Type} {names : Fin 8 → Bool} {c : Cmd α} {d : Cmd β} (hframe : Framed c)
    (hc : IgnoresLatch names c) (hd : IgnoresLatch names d) : IgnoresLatch names (c.andThen d) :=
  hc.bind hframe fun _ => hd

/-! ### Landing -/

theorem hostAccess_relatch (a : HostAccess) {s : State} (hs : s.phase = .run) (l : Vector Word 8) :
    hostAccess a (s.relatch l) = (hostAccess a s).relatch l := by
  cases a with
  | read sz off => simp only [hostAccess]; cases hostRegAt off <;> rfl
  | write sz off w =>
    simp only [hostAccess]
    cases hostRegAt off with
    | cmd =>
      have hs' : (s.relatch l).phase = .run := hs
      simp only [writeHostReg, writeCmd, hs, hs']
      rfl
    | status => simp only [writeHostReg, writeStatus]; split <;> rfl
    | _ => rfl

theorem landBusy_relatch (xs : List Input) {s : State} (hs : s.phase = .run) (l : Vector Word 8) :
    landBusy xs (s.relatch l) = (landBusy xs s).relatch l := by
  induction xs generalizing s with
  | nil => rfl
  | cons x xs ih =>
    cases x with
    | hostBusy a =>
      have hrun : (hostAccess a s).phase = .run := by rw [hostAccess_running a hs]; exact hs
      rw [landBusy, landBusy]
      split
      · rw [hostAccess_relatch a hs, ih hrun]
      · rfl
    | _ => rfl

section
variable {names : Fin 8 → Bool}

theorem ignoresLatch_settle : IgnoresLatch names settle := by
  refine ⟨fun s l hs _ => ?_⟩
  have h : landBusy (s.relatch l).inputs (s.relatch l) = _ := landBusy_relatch s.inputs hs l
  rw [settle, settle, h]
  cases landBusy s.inputs s <;> rfl

theorem landInFlight_of_issued {s : State} {rest : List Input} (h : s.inputs = .issued :: rest) :
    landInFlight s = landBusy rest s := by simp only [landInFlight, h]

theorem landInFlight_of_ne {s : State} (h : ∀ rest, s.inputs ≠ .issued :: rest) : landInFlight s = .go s := by
  unfold landInFlight
  split
  next rest hin => exact absurd hin (h rest)
  next => rfl

theorem landInFlight_relatch {s : State} (hs : s.phase = .run) (l : Vector Word 8) :
    landInFlight (s.relatch l) = (landInFlight s).relatch l := by
  by_cases h : ∃ rest, s.inputs = .issued :: rest
  · obtain ⟨rest, h⟩ := h
    rw [landInFlight_of_issued h, landInFlight_of_issued (s := s.relatch l) h]
    exact landBusy_relatch rest hs l
  · have hne : ∀ rest, s.inputs ≠ .issued :: rest := fun rest hin => h ⟨rest, hin⟩
    rw [landInFlight_of_ne hne, landInFlight_of_ne (s := s.relatch l) hne]
    rfl

/-! ### Channel transactions -/

theorem takeAnswer_of_answer {s : State} {a : Answer} {rest : List Input} (h : s.inputs = .answer a :: rest) :
    takeAnswer s = (a, { s with inputs := rest }) := by simp only [takeAnswer, h]

theorem takeAnswer_of_ne {s : State} (h : ∀ a rest, s.inputs ≠ .answer a :: rest) :
    takeAnswer s = (Config.freeAnswer s.draws, { s with draws := s.draws + 1 }) := by
  unfold takeAnswer
  split
  next a rest hin => exact absurd hin (h a rest)
  next => rfl

theorem takeAnswer_relatch (s : State) (l : Vector Word 8) :
    takeAnswer (s.relatch l) = ((takeAnswer s).1, (takeAnswer s).2.relatch l) := by
  by_cases h : ∃ a rest, s.inputs = .answer a :: rest
  · obtain ⟨a, rest, h⟩ := h
    rw [takeAnswer_of_answer h, takeAnswer_of_answer (s := s.relatch l) h]
    rfl
  · have hne : ∀ a rest, s.inputs ≠ .answer a :: rest := fun a rest hin => h ⟨a, rest, hin⟩
    rw [takeAnswer_of_ne hne, takeAnswer_of_ne (s := s.relatch l) hne]
    rfl

theorem ignoresLatch_inFlight (p : Port) (addr : Word) (op : ChanOp) : IgnoresLatch names (inFlight p addr op) := by
  refine ⟨fun s l hs _ => ?_⟩
  rw [inFlight, inFlight, landInFlight_relatch hs]
  cases landInFlight s with
  | go t => simp only [Landing.relatch, takeAnswer_relatch]; rfl
  | reset t => rfl

theorem ignoresLatch_ret {α : Type} (a : α) : IgnoresLatch names (Cmd.ret a) := ⟨fun _ _ _ _ => rfl⟩

theorem ignoresLatch_raise {α : Type} (e : Err) : IgnoresLatch names (raise e : Cmd α) := ⟨fun _ _ _ _ => rfl⟩

theorem ignoresLatch_transact (p : Port) (addr : Word) (op : ChanOp) : IgnoresLatch names (transact p addr op) :=
  ignoresLatch_settle.andThen framed_settle (ignoresLatch_inFlight p addr op)

theorem ignoresLatch_memRead (p : Port) (addr : Word) : IgnoresLatch names (memRead p addr) :=
  (ignoresLatch_transact p addr .read).bind (framed_transact _ _ _) fun a => by
    cases a with
    | value v => exact ignoresLatch_ret v
    | ioError => exact ignoresLatch_raise _

theorem ignoresLatch_memWrite (p : Port) (addr v : Word) : IgnoresLatch names (memWrite p addr v) :=
  (ignoresLatch_transact p addr (.write v)).bind (framed_transact _ _ _) fun a => by
    cases a with
    | value _ => exact ignoresLatch_ret ()
    | ioError => exact ignoresLatch_raise _

theorem ignoresLatch_pollLoop (n : Nat) : IgnoresLatch names (pollLoop n) := by
  induction n with
  | zero => exact ignoresLatch_raise _
  | succ n ih =>
    have hcount : IgnoresLatch names countRead := ⟨fun _ _ _ _ => rfl⟩
    refine hcount.andThen framed_countRead ((ignoresLatch_memRead _ _).bind (framed_memRead _ _) fun v => ?_)
    split
    · exact ih
    · exact ignoresLatch_ret _

theorem ignoresLatch_busyWait : IgnoresLatch names busyWait :=
  have hclear : IgnoresLatch names clearCount := ⟨fun _ _ _ _ => rfl⟩
  hclear.andThen framed_clearCount (ignoresLatch_pollLoop _)

/-! ### Sequences -/

theorem Checks.framed {α : Type} {c : Cmd α} (h : Checks names c) : Framed c := by
  induction h with
  | ret a => exact framed_ret a
  | reject h => exact framed_raise _
  | arg i _ => exact framed_argWord i
  | note b => exact framed_noteSearch b
  | look _ _ ih => exact framed_current.bind ih
  | bind _ _ ihc ihf => exact ihc.bind ihf

theorem Checks.ignoresLatch {α : Type} {c : Cmd α} (h : Checks names c) : IgnoresLatch names c := by
  induction h with
  | ret a => exact ignoresLatch_ret a
  | reject h => exact ignoresLatch_raise _
  | arg i hi => exact ⟨fun s l _ hl => congrArg (Res.ok · _) (hl i hi)⟩
  | note b => exact ⟨fun _ _ _ _ => rfl⟩
  | @look _ f _ hblind ih => exact ⟨fun s l hs hl => (congrFun (hblind s l) _).trans ((ih s).relatch s l hs hl)⟩
  | bind hc _ ihc ihf => exact ihc.bind hc.framed ihf

theorem Actions.framed {writes : StateWrite → Prop} {α : Type} {c : Cmd α} (h : Actions writes c) : Framed c := by
  induction h with
  | ret a => exact framed_ret a
  | read _ _ => exact framed_memRead _ _
  | write v _ => exact framed_memWrite _ _ v
  | wait => exact framed_busyWait
  | stageRes i v => exact framed_stageRes i v
  | stageState _ => exact framed_stageState _
  | bind _ _ ihc ihf => exact ihc.bind ihf

theorem Actions.ignoresLatch {writes : StateWrite → Prop} {α : Type} {c : Cmd α} (h : Actions writes c) :
    IgnoresLatch names c := by
  induction h with
  | ret a => exact ignoresLatch_ret a
  | read _ _ => exact ignoresLatch_memRead _ _
  | write v _ => exact ignoresLatch_memWrite _ _ v
  | wait => exact ignoresLatch_busyWait
  | stageRes i v => exact ⟨fun _ _ _ _ => rfl⟩
  | stageState _ => exact ⟨fun _ _ _ _ => rfl⟩
  | bind hc _ ihc ihf => exact ihc.bind hc.framed ihf

theorem Sequence.ignoresLatch {writes : StateWrite → Prop} {c : Cmd Unit} (h : Sequence names writes c) :
    IgnoresLatch names c := by
  induction h with
  | act h => exact h.ignoresLatch
  | check hc _ ih => exact hc.ignoresLatch.bind hc.framed ih
  | @look f _ hblind ih => exact ⟨fun s l hs hl => (congrFun (hblind s l) _).trans ((ih s).relatch s l hs hl)⟩

end

/-! ### A whole command -/

theorem commitState_relatch (l : Vector Word 8) (s : State) (w : StateWrite) :
    commitState (s.relatch l) w = (commitState s w).relatch l := by cases w <;> rfl

theorem completeOk_relatch (l : Vector Word 8) (t : State) : completeOk (t.relatch l) = (completeOk t).relatch l := by
  have h (ws : List StateWrite) (s : State) :
      ws.foldl commitState (s.relatch l) = (ws.foldl commitState s).relatch l := by
    induction ws generalizing s with
    | nil => rfl
    | cons w ws ih => rw [List.foldl_cons, commitState_relatch, ih, List.foldl_cons]
  exact congrArg (finish .ok 0#32) (h t.stagedState { t with res := t.stagedRes.foldl commitRes t.res })

/-- A command run with another latch, equal in the arguments it names, answers the same state but for the latch, which
a reset clears (70_reset_and_hazards.md R271). -/
theorem runCommand_relatch {names : Fin 8 → Bool} {body : Cmd Unit} (hb : IgnoresLatch names body) (s : State)
    {l : Vector Word 8} (hl : AgreesOn names s.latch l) :
    runCommand body (s.relatch l) = (runCommand body s).relatch l ∨
      runCommand body (s.relatch l) = runCommand body s := by
  have h : (settle.andThen body) ((beginRun s).relatch l) = ((settle.andThen body) (beginRun s)).relatch l :=
    ((ignoresLatch_settle (names := names)).andThen framed_settle hb).relatch (beginRun s) l rfl hl
  have hbegin : beginRun (s.relatch l) = (beginRun s).relatch l := rfl
  unfold runCommand
  rw [hbegin, h]
  cases (settle.andThen body) (beginRun s) with
  | ok a t => exact .inl (completeOk_relatch l t)
  | raise e t => exact .inl rfl
  | reset t => exact .inr rfl

/-- Settles O58: no part of a sequence reads an argument that the command does not name. -/
theorem unnamedArgumentsAreIgnored : Obligations.UnnamedArgumentsAreIgnored := by
  intro i n v s t t' hn h h'
  obtain rfl : runCommand (bodyOf i) s = t := by simpa [exec_eq] using h
  obtain rfl : runCommand (bodyOf i) { s with latch := s.latch.set n v } = t' := by simpa [exec_eq] using h'
  have hagree : AgreesOn (namesArg i) s.latch (s.latch.set n v) := by
    intro j hj
    have hne : n.val ≠ j.val := fun heq => by
      rw [Fin.ext heq, hj] at hn
      cases hn
    exact Vector.getElem_set_ne n.isLt j.isLt hne
  obtain hr | hr := runCommand_relatch (sequence_bodyOf i).ignoresLatch s hagree
  · exact congrArg (·.relatch (runCommand (bodyOf i) s).latch) hr
  · exact congrArg (·.relatch (runCommand (bodyOf i) s).latch) hr

end Sys2Proof.Machine
end

section
/-! PROOFS. The transactions a command makes and the error it ends with (41_drp.md R100; 60_exceptions.md R243). What a
sequence that goes on has made is `Clean`: all answered, never 10000 busy reads in a row, and none at its end; so
10000 busy reads in a row can only be those of one busy wait that timed out. -/

namespace Sys2Proof.Machine

/-! ### Busy reads in a row -/

/-- A read of DRP_STATUS that found the interface busy (41_drp.md R100). -/
def isBusyRead : Transaction → Bool
  | ⟨.clk, addr, .read, .value v⟩ => addr == 0x74#32 && v.getLsbD 16
  | _ => false

/-- The busy reads in a row at the end of a trace, when `k` of them stood before it. -/
def busyRunFrom (k : Nat) (tr : List Transaction) : Nat := tr.foldl (fun k x => if isBusyRead x then k + 1 else 0) k

theorem busyRunFrom_append (k : Nat) (a b : List Transaction) :
    busyRunFrom k (a ++ b) = busyRunFrom (busyRunFrom k a) b := List.foldl_append

theorem busyRunFrom_statusReads {bs : List Word} (hb : AllBusy bs) (k : Nat) :
    busyRunFrom k (statusReads bs) = k + bs.length := by
  induction bs generalizing k with
  | nil => rfl
  | cons b bs ih =>
    obtain ⟨hb, hbs⟩ := List.forall_mem_cons.mp hb
    have hread : isBusyRead ⟨.clk, 0x74#32, .read, .value b⟩ = true := hb
    rw [statusReads_cons, busyRunFrom, List.foldl_cons, if_pos hread, ← busyRunFrom, ih hbs, List.length_cons]
    omega

/-- A trace that ends with something else has no busy reads at its end. -/
theorem busyRunFrom_concat {x : Transaction} (hx : isBusyRead x = false) (k : Nat) (tr : List Transaction) :
    busyRunFrom k (tr ++ [x]) = 0 := by
  rw [busyRunFrom_append, busyRunFrom, List.foldl_cons, List.foldl_nil, hx, if_neg Bool.false_ne_true]

/-- Nowhere in the trace do 10000 busy reads stand in a row. -/
def Calm (tr : List Transaction) : Prop := ∀ a b, tr = a ++ b → busyRunFrom 0 a < 10000

theorem calm_nil : Calm [] := by
  intro a b h
  obtain ⟨rfl, -⟩ := List.append_eq_nil_iff.mp h.symm
  exact Nat.zero_lt_succ _

/-- Where one part ends without a busy read, the next counts from 0. -/
theorem Calm.append {a b : List Transaction} (ha : Calm a) (hrun : busyRunFrom 0 a = 0) (hb : Calm b) :
    Calm (a ++ b) := by
  intro c d h
  obtain ⟨m, rfl, -⟩ | ⟨m, rfl, rfl⟩ := List.append_eq_append_iff.mp h
  · rw [busyRunFrom_append, hrun]
    exact hb m d (by simp_all)
  · exact ha c m rfl

theorem Calm.concat {a : List Transaction} {x : Transaction} (ha : Calm a) (hx : isBusyRead x = false) :
    Calm (a ++ [x]) := by
  intro c d h
  obtain rfl | ⟨d, y, rfl⟩ := d.eq_nil_or_concat
  · rw [List.append_nil] at h
    rw [← h, busyRunFrom_concat hx]
    exact Nat.zero_lt_succ _
  · rw [List.concat_eq_append, ← List.append_assoc] at h
    exact ha c d (List.append_inj' h rfl).1

/-- Fewer than 10000 busy reads are calm. -/
theorem calm_statusReads {bs : List Word} (hb : AllBusy bs) (hn : bs.length < 10000) : Calm (statusReads bs) := by
  intro c d h
  obtain ⟨as, cs, rfl, rfl, -⟩ := List.map_eq_append_iff.mp h
  have has : AllBusy as := fun x hx => hb x (List.mem_append_left _ hx)
  rw [List.length_append] at hn
  have hrun := busyRunFrom_statusReads has 0
  rw [statusReads] at hrun
  omega

/-- A calm trace holds no 10000 busy reads in a row. -/
theorem Calm.no_timeout {tr before later : List Transaction} {bs : List Word} (h : Calm tr) (hb : AllBusy bs)
    (hn : bs.length = 10000) : tr ≠ before ++ statusReads bs ++ later := by
  intro heq
  have hrun := h _ _ heq
  rw [busyRunFrom_append, busyRunFrom_statusReads hb] at hrun
  omega

/-- Where the last 10000 are the only busy reads in a row, they are found at the end only. -/
theorem later_eq_nil {tr before later : List Transaction} {bs cs : List Word} (h : Calm tr)
    (hrun : busyRunFrom 0 tr = 0) (hbs : AllBusy bs) (hn : bs.length = 10000) (hcs : AllBusy cs)
    (hm : cs.length = 10000) (heq : tr ++ statusReads bs = before ++ statusReads cs ++ later) : later = [] := by
  obtain ⟨m, hm', hbs'⟩ | ⟨m, htr, -⟩ := List.append_eq_append_iff.mp heq
  · obtain ⟨as, ds, rfl, rfl, hds⟩ := List.map_eq_append_iff.mp hbs'
    have has : AllBusy as := fun x hx => hbs x (List.mem_append_left _ hx)
    have hends := congrArg (busyRunFrom 0) hm'
    have hrunas := busyRunFrom_statusReads has 0
    rw [statusReads] at hrunas
    rw [busyRunFrom_append, busyRunFrom_statusReads hcs, busyRunFrom_append, hrun, hrunas] at hends
    rw [List.length_append] at hn
    obtain rfl : ds = [] := List.eq_nil_of_length_eq_zero (by omega)
    exact hds.symm
  · exact absurd htr (h.no_timeout hcs hm)

/-! ### Clean traces -/

/-- The transaction was answered, and not with IoError. -/
def Succeeded (x : Transaction) : Prop := x.reply ≠ .ioError ∧ x.reply ≠ .unanswered

/-- The transactions of a sequence that goes on: all succeeded, no 10000 busy reads in a row, none at the end. -/
structure Clean (tr : List Transaction) : Prop where
  succeeded : ∀ x ∈ tr, Succeeded x
  calm : Calm tr
  rested : busyRunFrom 0 tr = 0

theorem clean_nil : Clean [] := ⟨nofun, calm_nil, rfl⟩

theorem succeeded_append {a b : List Transaction} (ha : ∀ x ∈ a, Succeeded x) (hb : ∀ x ∈ b, Succeeded x) :
    ∀ x ∈ a ++ b, Succeeded x := List.forall_mem_append.mpr ⟨ha, hb⟩

theorem Clean.append {a b : List Transaction} (ha : Clean a) (hb : Clean b) : Clean (a ++ b) :=
  ⟨succeeded_append ha.succeeded hb.succeeded, ha.calm.append ha.rested hb.calm,
    by rw [busyRunFrom_append, ha.rested, hb.rested]⟩

theorem succeeded_statusReads (bs : List Word) : ∀ x ∈ statusReads bs, Succeeded x := by
  intro x hx
  obtain ⟨v, -, rfl⟩ := List.mem_map.mp hx
  exact ⟨nofun, nofun⟩

/-- A single successful access to another register than DRP_STATUS. -/
theorem clean_singleton {x : Transaction} (hx : Succeeded x) (hb : isBusyRead x = false) : Clean [x] :=
  ⟨List.forall_mem_singleton.mpr hx, calm_nil.concat hb, busyRunFrom_concat hb 0 []⟩

/-- The reads of a busy wait that ended within its budget. -/
theorem clean_statusReads {bs : List Word} {last : Word} (hb : AllBusy bs) (hn : bs.length < 10000)
    (hl : last.getLsbD 16 = false) : Clean (statusReads (bs ++ [last])) := by
  have hlast : isBusyRead ⟨.clk, 0x74#32, .read, .value last⟩ = false := hl
  have heq : statusReads (bs ++ [last]) = statusReads bs ++ [⟨.clk, 0x74#32, .read, .value last⟩] := List.map_append
  refine ⟨succeeded_statusReads _, ?_, ?_⟩
  · rw [heq]; exact (calm_statusReads hb hn).concat hlast
  · rw [heq]; exact busyRunFrom_concat hlast 0 _

/-! ### What a part of a sequence makes -/

/-- What a part of a sequence made, by the way it ended. -/
inductive Made {α : Type} : List Transaction → Res α → Prop
  | ok {a : α} {t : State} {tr : List Transaction} (h : Clean tr) : Made tr (.ok a t)
  | failed {p : Port} {addr : Word} {op : ChanOp} {t : State} {before : List Transaction}
      (hs : ∀ x ∈ before, Succeeded x) (hc : Calm before) :
      Made (before ++ [⟨p, addr, op, .ioError⟩]) (.raise (.ioError p addr) t)
  | timeout {t : State} {before : List Transaction} {bs : List Word} (h : Clean before) (hb : AllBusy bs)
      (hn : bs.length = 10000) : Made (before ++ statusReads bs) (.raise (.timeout .clk 0x74#32) t)
  | rejected {e : Err} {t : State} (h : e.Rejects) : Made [] (.raise e t)
  | abandoned {t : State} {tr : List Transaction} (hs : ∀ x ∈ tr, x.reply ≠ .ioError) (hc : Calm tr) :
      Made tr (.reset t)

/-- A part that made no rejection, after clean transactions. -/
theorem Made.prepend {α : Type} {a tr : List Transaction} {r : Res α} (ha : Clean a) (h : Made tr r)
    (hr : ∀ e t, r = .raise e t → e.OfChannel) : Made (a ++ tr) r := by
  cases h with
  | ok h => exact .ok (ha.append h)
  | failed hs hc =>
    rw [← List.append_assoc]
    exact .failed (succeeded_append ha.succeeded hs) (ha.calm.append ha.rested hc)
  | timeout h hb hn =>
    rw [← List.append_assoc]
    exact .timeout (ha.append h) hb hn
  | @rejected e t h => cases h <;> cases hr _ _ rfl
  | abandoned hs hc =>
    exact .abandoned (List.forall_mem_append.mpr ⟨fun x hx => (ha.succeeded x hx).1, hs⟩)
      (ha.calm.append ha.rested hc)

/-- From `s` a part of a sequence that ended so made these transactions. -/
def MadeFrom {α : Type} (s : State) (r : Res α) : Prop := ∃ tr, r.after.trace = s.trace ++ tr ∧ Made tr r

theorem isBusyRead_of_reply {x : Transaction} (h : ∀ v, x.reply ≠ .value v) : isBusyRead x = false := by
  unfold isBusyRead
  split
  next v => exact absurd rfl (h v)
  next => rfl

theorem isBusyRead_ioError (p : Port) (addr : Word) (op : ChanOp) : isBusyRead ⟨p, addr, op, .ioError⟩ = false :=
  isBusyRead_of_reply nofun

theorem calm_interrupted {p : Port} {addr : Word} {op : ChanOp} {before tr : List Transaction} (hb : Calm before)
    (h : Interrupted p addr op tr) : Calm (before ++ tr) := by
  obtain rfl | rfl := h
  · rw [List.append_nil]; exact hb
  · exact hb.concat (isBusyRead_of_reply nofun)

theorem Interrupted.not_ioError {p : Port} {addr : Word} {op : ChanOp} {tr : List Transaction}
    (h : Interrupted p addr op tr) : ∀ x ∈ tr, x.reply ≠ .ioError := by
  obtain rfl | rfl := h
  · nofun
  · exact List.forall_mem_singleton.mpr nofun

theorem AccessEnd.madeFrom {α : Type} {p : Port} {addr : Word} {op : ChanOp} {reply : α → Reply} {s : State} {r : Res α}
    (h : AccessEnd p addr op reply s r)
    (hclean : ∀ a, Succeeded ⟨p, addr, op, reply a⟩ ∧ isBusyRead ⟨p, addr, op, reply a⟩ = false) : MadeFrom s r := by
  cases h with
  | ok ht _ => exact ⟨_, ht, .ok (clean_singleton (hclean _).1 (hclean _).2)⟩
  | failed ht => exact ⟨_, ht, .failed (before := []) nofun calm_nil⟩
  | abandoned ht hm => exact ⟨_, ht, .abandoned hm.not_ioError (calm_interrupted calm_nil hm)⟩

theorem PollEnd.madeFrom {s : State} {r : Res Half} (h : PollEnd 10000 s r) : MadeFrom s r := by
  cases h with
  | ok hn hb hl ht _ => exact ⟨_, ht, .ok (clean_statusReads hb hn hl)⟩
  | timeout hn hb ht => exact ⟨_, ht, .timeout (before := []) clean_nil hb hn⟩
  | failed hn hb ht => exact ⟨_, ht, .failed (succeeded_statusReads _) (calm_statusReads hb hn)⟩
  | abandoned hn hb ht hm =>
    exact ⟨_, ht, .abandoned
      (List.forall_mem_append.mpr ⟨fun x hx => (succeeded_statusReads _ x hx).1, hm.not_ioError⟩)
      (calm_interrupted (calm_statusReads hb hn) hm)⟩

theorem Actions.madeFrom {writes : StateWrite → Prop} {α : Type} {c : Cmd α} (h : Actions writes c) (s : State) :
    MadeFrom s (c s) := by
  have quiet {β : Type} (s t : State) (a : β) (ht : t.trace = s.trace) : MadeFrom s (.ok a t) :=
    ⟨[], ht.trans (List.append_nil _).symm, .ok clean_nil⟩
  induction h generalizing s with
  | ret a => exact quiet s s a rfl
  | @read p addr _ hs =>
    refine (memRead_ends p addr s).madeFrom fun v => ⟨⟨nofun, nofun⟩, ?_⟩
    cases p with
    | clk => exact Bool.and_eq_false_imp.mpr fun h => absurd (eq_of_beq h) (hs rfl)
    | sns => rfl
  | @write p addr v _ =>
    exact (memWrite_ends p addr v s).madeFrom fun _ => ⟨⟨nofun, nofun⟩, isBusyRead_of_reply nofun⟩
  | wait => exact (busyWait_ends s).madeFrom
  | stageRes i v => exact quiet _ _ () rfl
  | stageState _ => exact quiet _ _ () rfl
  | @bind _ _ c f hc hf ihc ihf =>
    obtain ⟨a, hatr, ha⟩ := ihc s
    generalize hr : c s = r at ha hatr
    cases ha with
    | @ok v t _ hclean =>
      rw [bind_of_ok hr]
      obtain ⟨b, hbtr, hb⟩ := ihf v t
      refine ⟨a ++ b, by rw [hbtr, ← List.append_assoc, ← hatr]; rfl, hb.prepend hclean fun e u he => ?_⟩
      have hend := (hf v).ends t
      rw [he] at hend
      exact hend
    | failed hs hcalm => rw [bind_of_raise hr]; exact ⟨_, hatr, .failed hs hcalm⟩
    | timeout h hb hn => rw [bind_of_raise hr]; exact ⟨_, hatr, .timeout h hb hn⟩
    | rejected h => rw [bind_of_raise hr]; exact ⟨_, hatr, .rejected h⟩
    | abandoned hs hcalm => rw [bind_of_reset hr]; exact ⟨_, hatr, .abandoned hs hcalm⟩

theorem Sequence.madeFrom {names : Fin 8 → Bool} {writes : StateWrite → Prop} {c : Cmd Unit}
    (h : Sequence names writes c) (s : State) : MadeFrom s (c s) := by
  induction h generalizing s with
  | act h => exact h.madeFrom s
  | look _ _ ih => exact ih s s
  | @check _ c f hc _ ih =>
    have h := hc.ends s
    generalize hr : c s = r at h
    cases h with
    | ok a b =>
      rw [bind_of_ok hr]
      exact ih a { s with search := b }
    | raise h b =>
      rw [bind_of_raise hr]
      exact ⟨[], (List.append_nil _).symm, .rejected h⟩

/-! ### What a command makes -/

/-- What a command made, by the outcome it reports; one that a reset abandoned reports none. -/
inductive CommandMade : List Transaction → ErrCode → Word → Prop
  | ok {tr : List Transaction} {info : Word} (hs : ∀ x ∈ tr, x.reply ≠ .ioError) (hc : Calm tr) : CommandMade tr .ok info
  | failed {p : Port} {addr : Word} {op : ChanOp} {before : List Transaction}
      (hs : ∀ x ∈ before, Succeeded x) (hc : Calm before) :
      CommandMade (before ++ [⟨p, addr, op, .ioError⟩]) .ioError (errRecord p addr)
  | timeout {before : List Transaction} {bs : List Word} (h : Clean before) (hb : AllBusy bs) (hn : bs.length = 10000) :
      CommandMade (before ++ statusReads bs) .timeout 0x90000074#32
  | rejected {e : Err} (h : e.Rejects) : CommandMade [] e.errCode 0#32

theorem runCommand_made (i : Instr) (s : State) :
    let t := runCommand (bodyOf i) s
    ∃ tr, t.trace = s.trace ++ tr ∧ CommandMade tr t.err t.errInfo := by
  intro t
  obtain ⟨u, hl, -, hu⟩ | ⟨t', ht, hu, hrun⟩ := landed_or_abandoned s
  · have hreset := (framed_settle.andThen (framed_bodyOf i)).keeps (beginRun s) rfl
    obtain ⟨tr, htr, hmade⟩ := (sequence_bodyOf i).madeFrom u
    rw [hu.1] at htr
    generalize hr : bodyOf i u = r at htr hmade
    cases hmade with
    | @ok _ v _ hclean =>
      have ht : t = completeOk v := runCommand_ok hl hr
      refine ⟨tr, by rw [ht, (completeOk_unheard v).1, ← htr]; rfl, ?_⟩
      rw [ht]
      exact .ok (fun x hx => (hclean.succeeded x hx).1) hclean.calm
    | failed hs hc =>
      have ht : t = _ := runCommand_raise hl hr
      rw [ht]
      exact ⟨_, htr, .failed hs hc⟩
    | timeout h hb hn =>
      have ht : t = _ := runCommand_raise hl hr
      rw [ht]
      exact ⟨_, htr, .timeout h hb hn⟩
    | @rejected e v h =>
      have ht : t = completeErr e v := runCommand_raise hl hr
      rw [ht]
      refine ⟨[], htr, ?_⟩
      have hinfo : e.info = 0#32 := by cases h <;> rfl
      show CommandMade [] e.errCode e.info
      rw [hinfo]
      exact .rejected h
    | @abandoned v _ hs hc =>
      have hseq : (settle.andThen (bodyOf i)) (beginRun s) = .reset v := by
        rw [andThen_of_ok (settle_of_landed hl), hr]
      have ht : t = v := runCommand_reset hl hr
      rw [hseq] at hreset
      obtain ⟨w, -, hv, -⟩ := hreset
      have herr : v.err = .ok := by rw [hv]; rfl
      rw [ht, herr]
      exact ⟨tr, htr, .ok hs hc⟩
  · have ht' : t = t' := hrun _
    obtain ⟨w, -, hv, -⟩ := ht
    have herr : t'.err = .ok := by rw [hv]; rfl
    rw [ht', herr]
    exact ⟨[], hu.1.trans (List.append_nil _).symm, .ok nofun calm_nil⟩

/-- A read and a write that fail, on any port (20_memory.md R53, R54). -/
theorem access_ioError (p : Port) (addr : Word) (s : State) (rest : List Input)
    (h : s.inputs = .answer .ioError :: rest) :
    memRead p addr s = .raise (.ioError p addr) (ran s [⟨p, addr, .read, .ioError⟩] rest) ∧
      ∀ v, memWrite p addr v s = .raise (.ioError p addr) (ran s [⟨p, addr, .write v, .ioError⟩] rest) :=
  ⟨memRead_ioError h, fun _ => memWrite_ioError h⟩

/-- Settles O55: by what a command made. -/
theorem failingTransactionIsLastAndRecorded : Obligations.FailingTransactionIsLastAndRecorded := by
  refine ⟨access_ioError, fun i s t h => ?_⟩
  obtain rfl : runCommand (bodyOf i) s = t := by simpa [exec_eq] using h
  obtain ⟨tr, htr, hmade⟩ := runCommand_made i s
  generalize runCommand (bodyOf i) s = t at htr hmade
  generalize t.err = e, t.errInfo = info at hmade
  have cancel {made : List Transaction} (hm : t.trace = s.trace ++ made) : made = tr :=
    List.append_cancel_left (hm.symm.trans htr)
  refine ⟨fun he => ?_, fun he => ?_, fun made x hm hx hio => ?_, fun before bs later hn hb hm => ?_⟩
  · cases hmade with
    | ok _ _ => cases he
    | @failed p addr op before hs _ => exact ⟨before, p, addr, op, by rw [htr, List.append_assoc], rfl, hs⟩
    | timeout _ _ _ => cases he
    | rejected hrej => cases hrej <;> cases he
  · cases hmade with
    | ok _ _ => cases he
    | failed _ _ => cases he
    | @timeout before bs hclean hb hn =>
      exact ⟨before, bs, by rw [htr, List.append_assoc]; rfl, hn, hb, rfl, hclean.succeeded⟩
    | rejected hrej => cases hrej <;> cases he
  · obtain rfl := cancel hm
    cases hmade with
    | ok hs _ => exact absurd hio (hs x hx)
    | failed _ _ => rfl
    | timeout hclean _ _ =>
      exact absurd hio (succeeded_append hclean.succeeded (succeeded_statusReads _) x hx).1
    | rejected _ => cases hx
  · have hreads : before ++ statusReads bs ++ later = tr :=
      cancel (by rw [hm, List.append_assoc, List.append_assoc, List.append_assoc]; rfl)
    cases hmade with
    | ok _ hc => exact absurd hreads.symm (hc.no_timeout hb hn)
    | failed _ hc => exact absurd hreads.symm ((hc.concat (isBusyRead_ioError _ _ _)).no_timeout hb hn)
    | timeout hclean hcs hm' =>
      exact ⟨rfl, rfl, later_eq_nil hclean.calm hclean.rested hcs hm' hb hn hreads.symm⟩
    | rejected _ => exact absurd hreads.symm (calm_nil.no_timeout hb hn)

end Sys2Proof.Machine
end

section
/-! PROOFS. The command word (30_encoding.md R70 to R75) and the step that runs it: the decoder and the encoder are
inverse, and an undecodable word completes with IllegalCommand. -/

namespace Sys2Proof.Machine

/-! ### Encoder and decoder -/

/-- The table gives each command's opcode back (30_encoding.md R73). -/
theorem opcodeRow_opcodeOf (i : Instr) : opcodeRow (opcodeOf i) = some i := by cases i <;> rfl

/-- Only the table's opcodes have a row, each for the command of that opcode (30_encoding.md R73). -/
theorem opcodeRow_table :
    ∀ o : Byte, (opcodeRow o).map opcodeOf = if assignedOpcodes.contains o then some o else none := by decide

theorem opcodeOf_of_opcodeRow {o : Byte} {i : Instr} (h : opcodeRow o = some i) : opcodeOf i = o := by
  have ht := opcodeRow_table o
  rw [h, Option.map_some] at ht
  split at ht
  next => exact Option.some.inj ht
  next => cases ht

theorem opcodeRow_isSome_iff (o : Byte) : (∃ i, opcodeRow o = some i) ↔ assignedOpcodes.contains o = true := by
  have ht := opcodeRow_table o
  split at ht
  next hc =>
    obtain ⟨i, hi, -⟩ := Option.map_eq_some_iff.mp ht
    exact ⟨fun _ => hc, fun _ => ⟨i, hi⟩⟩
  next hc =>
    rw [Option.map_eq_none_iff] at ht
    exact ⟨fun ⟨i, hi⟩ => absurd (ht.symm.trans hi) nofun, fun h => absurd h hc⟩

/-- The decoder accepts a word when its ZERO field is 0 and its opcode has a row (30_encoding.md R72). -/
theorem decode_eq_ok_iff (w : Word) (i : Instr) :
    decode w = .ok i ↔ w.extractLsb' 8 24 = 0#24 ∧ opcodeRow (w.extractLsb' 0 8) = some i := by
  unfold decode
  split
  next hz => exact ⟨nofun, fun ⟨h, _⟩ => absurd h hz⟩
  next hz =>
    have hz : w.extractLsb' 8 24 = 0#24 := Decidable.not_not.mp hz
    split
    next j hj => rw [hj, Except.ok.injEq, Option.some.injEq]; exact ⟨fun h => ⟨hz, h⟩, fun h => h.2⟩
    next hn => rw [hn]; exact ⟨nofun, fun h => nomatch h.2⟩

/-- A word is its ZERO field and its opcode (30_encoding.md R70). -/
theorem word_eq_append (w : Word) : w = w.extractLsb' 8 24 ++ w.extractLsb' 0 8 := by
  ext i hi
  rw [BitVec.getElem_append]
  split
  next => simp [BitVec.getLsbD_eq_getElem hi]
  next h =>
    have hbit : 8 + (i - 8) = i := Nat.add_sub_cancel' (Nat.not_lt.mp h)
    simp [hbit, BitVec.getLsbD_eq_getElem hi]

/-- Settles O1. -/
theorem encodedCommandDecodesBack : Obligations.EncodedCommandDecodesBack := by
  intro i
  cases i <;> rfl

/-- Settles O2: the decoder accepts by the two fields, and a word is made of those. -/
theorem decodeAcceptsExactlyTheTable : Obligations.DecodeAcceptsExactlyTheTable := by
  refine fun w => ⟨?_, fun i hi => ?_⟩
  · rw [commandWordWellFormed, Bool.and_eq_true, ← opcodeRow_isSome_iff, beq_iff_eq]
    simp only [decode_eq_ok_iff, exists_and_left]
  · obtain ⟨hzero, hrow⟩ := (decode_eq_ok_iff w i).mp hi
    rw [encode, opcodeOf_of_opcodeRow hrow, ← hzero]
    exact word_eq_append w

/-- Settles O3. -/
theorem tableWordsDecode : Obligations.TableWordsDecode := ⟨rfl, rfl, rfl, rfl, rfl, rfl, rfl⟩

/-! ### The step in RUN -/

theorem step_of_decoded {s : State} {i : Instr} (hs : s.phase = .run) (hd : decode s.cmd = .ok i) :
    step s = exec i s := by simp only [step, hs, hd]

/-- A fetch word of 32 bits is one that is accepted (10_state.md R26). -/
theorem withFetchWord_eq (s : State) {w : Nat} (hw : w < 2 ^ 32) :
    s.withFetchWord 32 w = accept (BitVec.ofNat 32 w) s := by
  show accept (BitVec.ofNat 32 (w % 2 ^ 32)) s = _
  rw [Nat.mod_eq_of_lt hw]

theorem extractLsb'_ofNat_opcode (w : Nat) : (BitVec.ofNat 32 w).extractLsb' 0 8 = BitVec.ofNat 8 w := by
  apply BitVec.eq_of_toNat_eq
  rw [BitVec.extractLsb'_toNat, BitVec.toNat_ofNat, BitVec.toNat_ofNat, Nat.shiftRight_zero]
  exact Nat.mod_mod_of_dvd _ (by decide)

/-- Settles O4: acceptance leaves the engine in RUN with the word in CMD. -/
theorem runStepExecutesTheDecodedCommand : Obligations.RunStepExecutesTheDecodedCommand := by
  refine ⟨fun s i hs hd => step_of_decoded hs hd, fun s w i hd hw => ?_⟩
  rw [withFetchWord_eq s hw, step_of_decoded (s := accept (BitVec.ofNat 32 w) s) rfl hd, accept, extractLsb'_ofNat_opcode]

/-- Settles O5: the sequence of an undecodable word only raises IllegalCommand. -/
theorem undecodableWordCompletesIllegalCommand : Obligations.UndecodableWordCompletesIllegalCommand := by
  intro s u e hs hd hl
  have hb : (raise .illegalCommand : Cmd Unit) u = .raise .illegalCommand u := rfl
  have hstep : step s = execIllegal s := by simp only [step, hs, hd]
  rw [hstep, execIllegal, runCommand_raise hl hb]
  rfl

end Sys2Proof.Machine
end

section
/-! PROOFS. The host window (10_state.md R21 to R27): what one step in IDLE does, what a host access does while a command
runs, and the words a host reads. -/

namespace Sys2Proof.Machine

/-! ### The registers of the window -/

/-- ARGn stands at 0x10 + 4n (10_state.md R21). -/
theorem hostRegAt_arg (n : Fin 8) : hostRegAt (0x10 + 4 * n.val) = .arg n := by
  rw [hostRegAt, dif_pos (by omega)]
  exact congrArg HostReg.arg (Fin.ext (by show (0x10 + 4 * n.val - 0x10) / 4 = n.val; omega))

/-- A write does nothing at an offset that is neither CMD nor STATUS nor an ARG (10_state.md R22). -/
theorem writeHostReg_other {off : Nat} (h0 : off ≠ 0x00) (h4 : off ≠ 0x04) (harg : off < 0x10 ∨ 0x30 ≤ off) (w : Word)
    (s : State) : writeHostReg (hostRegAt off) w s = s := by
  unfold hostRegAt
  rw [dif_neg (by omega)]
  split
  · rfl
  · split <;> first | rfl | contradiction

/-! ### A step in IDLE -/

theorem wellFormed_iff (a : HostAccess) :
    a.wellFormed = true ↔ a.offset < 0x100 ∧ a.size = .word ∧ a.offset % 4 = 0 := by
  simp only [HostAccess.wellFormed, HostAccess.inWindow, HostAccess.isWord, Bool.and_eq_true, decide_eq_true_iff,
    beq_iff_eq]

theorem wellFormed_read {off : Nat} (hoff : off < 0x100) (halign : off % 4 = 0) :
    (HostAccess.read .word off).wellFormed = true := (wellFormed_iff _).mpr ⟨hoff, rfl, halign⟩

theorem wellFormed_write {off : Nat} (hoff : off < 0x100) (halign : off % 4 = 0) (w : Word) :
    (HostAccess.write .word off w).wellFormed = true := (wellFormed_iff _).mpr ⟨hoff, rfl, halign⟩

/-- In IDLE the pending host access, of either kind, is the step (10_state.md R23). -/
theorem step_of_access {s : State} {a : HostAccess} {rest : List Input} (hs : s.phase = .idle)
    (hin : s.inputs = .host a :: rest ∨ s.inputs = .hostBusy a :: rest) :
    step s = hostStep a { s with inputs := rest } := by
  obtain hin | hin := hin <;> simp only [step, hs, idleStep, hin]

/-- A well-formed access is made (10_state.md R22). -/
theorem step_of_wellFormed {s : State} {a : HostAccess} {rest : List Input} (hs : s.phase = .idle)
    (hin : s.inputs = .host a :: rest ∨ s.inputs = .hostBusy a :: rest) (ha : a.wellFormed = true) :
    step s = .next { hostAccess a s with inputs := rest } := by
  obtain ⟨hwindow, hword⟩ := Bool.and_eq_true_iff.mp ha
  rw [step_of_access hs hin, hostStep, hwindow, hword, if_neg Bool.noConfusion, if_neg Bool.noConfusion,
    hostAccess_withInputs]

/-- Settles O13: the step in IDLE checks the window first, then the form, and makes every other access. -/
theorem undefinedHostAccessStops : Obligations.UndefinedHostAccessStops := by
  intro s a rest hs hin
  refine ⟨fun hoff => ?_, fun hoff hform => ?_, fun hoff hsize halign => ?_⟩
  · have hwindow : a.inWindow = false := decide_eq_false (Nat.not_lt.mpr hoff)
    rw [step_of_access hs hin, hostStep, if_pos hwindow]
  · have hwindow : ¬ a.inWindow = false := by rw [HostAccess.inWindow, decide_eq_true hoff]; exact Bool.noConfusion
    have hword : a.isWord = false := by
      rw [HostAccess.isWord, Bool.and_eq_false_iff, beq_eq_false_iff_ne, beq_eq_false_iff_ne]
      exact hform
    rw [step_of_access hs hin, hostStep, if_neg hwindow, if_pos hword]
  · exact ⟨_, step_of_wellFormed hs hin ((wellFormed_iff a).mpr ⟨hoff, hsize, halign⟩)⟩

/-- Settles O6. -/
theorem cmdWriteInIdleIsAccepted : Obligations.CmdWriteInIdleIsAccepted := by
  intro s w rest hs hin
  have haccept : hostAccess (.write .word 0x00 w) s = accept w s := by
    show writeCmd w s = _
    simp only [writeCmd, hs]
  rw [step_of_wellFormed hs (.inl hin) (wellFormed_write (by decide) rfl w), haccept]
  rfl

/-! ### While a command runs -/

/-- A well-formed access that does `f` to a running state does `f` at each landing point, if `f` neither looks at the
hidden working state, the phase and the pending inputs nor changes them (log 2). -/
theorem whileRunning_of_hostAccess {a : HostAccess} {f : State → State} (ha : a.wellFormed = true)
    (hf : ∀ s, s.phase = .run → hostAccess a s = f s) (hbegin : ∀ s, f (beginRun s) = beginRun (f s)) :
    WhileRunning a f where
  first i s rest hin := by
    have hsettle : settle (beginRun s) = settle (beginRun { f s with inputs := rest }) := by
      rw [settle_hostBusy (s := beginRun s) hin ha, hf _ rfl, hbegin]
      rfl
    rw [exec_eq, exec_eq]
    simp only [runCommand, Cmd.andThen, Cmd.bind, hsettle]
  unissued p addr op s rest hs hin := by rw [transact_hostBusy hin ha, hf s hs]
  waiting p addr op s rest hs hin := by rw [transact_issued_hostBusy hin ha, hf s hs]

/-- Settles O7. -/
theorem cmdWriteWhileRunningOnlySetsOverrun : Obligations.CmdWriteWhileRunningOnlySetsOverrun := by
  refine fun w => whileRunning_of_hostAccess (wellFormed_write (by decide) rfl w) (fun s hs => ?_) fun s => rfl
  show writeCmd w s = _
  simp only [writeCmd, hs]

/-- A write of ARGn sets it (10_state.md R24). -/
theorem hostAccess_argWrite (n : Fin 8) (v : Word) (s : State) :
    hostAccess (.write .word (0x10 + 4 * n.val) v) s = { s with arg := s.arg.set n v } := by
  rw [hostAccess, hostRegAt_arg]
  rfl

/-- Settles O8. -/
theorem argWriteChangesOnlyTheArgument : Obligations.ArgWriteChangesOnlyTheArgument := by
  have hform (n : Fin 8) (v : Word) : (HostAccess.write .word (0x10 + 4 * n.val) v).wellFormed = true :=
    wellFormed_write (by omega) (by omega) v
  refine ⟨fun n s v rest hs hin => ?_, fun n v => ?_⟩
  · rw [step_of_wellFormed hs (.inl hin) (hform n v), hostAccess_argWrite]
  · exact whileRunning_of_hostAccess (hform n v) (fun s _ => hostAccess_argWrite n v s) fun s => rfl

/-- A write of STATUS clears OVERRUN by its bit 2 (10_state.md R27). -/
theorem hostAccess_statusWrite (w : Word) (s : State) :
    hostAccess (.write .word 0x04 w) s = { s with overrun := s.overrun && !w.getLsbD 2 } := by
  show writeStatus w s = _
  unfold writeStatus
  cases w.getLsbD 2
  · rw [if_neg Bool.noConfusion, Bool.not_false, Bool.and_true]
  · rw [if_pos rfl, Bool.not_true, Bool.and_false]

/-- Settles O9. -/
theorem statusWriteClearsOnlyOverrun : Obligations.StatusWriteClearsOnlyOverrun := by
  refine ⟨fun s w rest hs hin => ?_, fun w => ?_⟩
  · rw [step_of_wellFormed hs (.inl hin) (wellFormed_write (by decide) rfl w), hostAccess_statusWrite]
  · exact whileRunning_of_hostAccess (wellFormed_write (by decide) rfl w)
      (fun s _ => hostAccess_statusWrite w s) fun s => rfl

/-- Settles O10. -/
theorem otherWritesHaveNoEffect : Obligations.OtherWritesHaveNoEffect := by
  intro off w hoff halign h0 h4 harg
  have hform := wellFormed_write hoff halign w
  have hnone (s : State) : hostAccess (.write .word off w) s = s := writeHostReg_other h0 h4 harg w s
  refine ⟨fun s rest hs hin => ?_, whileRunning_of_hostAccess hform (fun s _ => hnone s) fun s => rfl⟩
  rw [step_of_wellFormed hs (.inl hin) hform, hnone]

/-! ### Reads -/

/-- A read answers what the window map gives (10_state.md R21). -/
theorem hostAccess_read {off : Nat} (hoff : off < 0x100) (halign : off % 4 = 0) (s : State) :
    hostAccess (.read .word off) s = { s with hostReads := s.hostReads ++ [⟨off, windowRead s off⟩] } := by
  rw [hostAccess, windowRead_eq s hoff halign]

/-- A map with no key twice looks up the value of each of its entries. -/
theorem lookup_of_mem {l : List (Nat × Word)} (hl : (l.map Prod.fst).Nodup) {k : Nat} {v : Word} (h : (k, v) ∈ l) :
    l.lookup k = some v := by
  induction l with
  | nil => cases h
  | cons x l ih =>
    obtain ⟨hx, hl⟩ := List.nodup_cons.mp hl
    obtain rfl | h := List.mem_cons.mp h
    · exact List.lookup_cons_self
    · have hne : (k == x.1) = false := beq_false_of_ne fun heq => hx (heq ▸ List.mem_map_of_mem h)
      rw [List.lookup_cons, hne]
      exact ih hl h

theorem windowRead_of_mem {s : State} {off : Nat} {v : Word} (h : (off, v) ∈ windowTable s) : windowRead s off = v := by
  have hkeys : ((windowTable s).map Prod.fst).Nodup := by
    simp only [windowTable, List.map_cons, List.map_nil]
    decide
  rw [windowRead, lookup_of_mem hkeys h, Option.getD_some]

theorem windowRead_of_not_mem {s : State} {off : Nat} (h : ∀ v, (off, v) ∉ windowTable s) : windowRead s off = 0#32 := by
  have hnone : (windowTable s).lookup off = none := by
    rw [List.lookup_eq_none_iff]
    intro x hx
    exact bne_iff_ne.mpr fun heq => h x.2 (heq ▸ hx)
  rw [windowRead, hnone, Option.getD_none]

/-- A read is as before the hidden working state was cleared when it is as after. -/
theorem readsAsBefore_of_beginRun {s : State} {x : HostRead} (h : ReadsAsBefore (beginRun s) x) : ReadsAsBefore s x :=
  ⟨h.1, fun h4 ho => (h.2 h4 ho).trans (windowRead_congr rfl rfl rfl ⟨rfl, rfl, rfl, rfl, rfl, rfl⟩ h4 ho)⟩

/-- The reads a command answered while it ran, however it ended (10_state.md R25, R27, R33). -/
theorem commandEnd_reads {i : Instr} {s t : State} (h : CommandEnd i s t) :
    ∃ made, t.hostReads = s.hostReads ++ made ∧ ∀ x ∈ made, ReadsAsBefore s x := by
  have before {u : State} (hf : Frame (beginRun s) u) (hu : t.hostReads = u.hostReads) :
      ∃ made, t.hostReads = s.hostReads ++ made ∧ ∀ x ∈ made, ReadsAsBefore s x := by
    obtain ⟨made, hmade, hreads⟩ := hf.reads
    exact ⟨made, hu.trans hmade, fun x hx => readsAsBefore_of_beginRun (hreads x hx)⟩
  cases h with
  | @ok _ u _ _ hf _ => exact before hf (by rw [completeOk_eq]; rfl)
  | raise _ _ hf _ => exact before hf rfl
  | abandoned h =>
    obtain ⟨u, hf, hu, -⟩ := h
    exact before hf (by rw [hu]; rfl)

/-- Settles O11. -/
theorem hostReadAnswersTheWindow : Obligations.HostReadAnswersTheWindow := by
  refine ⟨fun off hoff halign => ⟨fun s rest hs hin => ?_, ?_⟩, fun s off v h => windowRead_of_mem h,
    fun s off h => windowRead_of_not_mem h, fun i s t h => commandEnd_reads (exec_ends h)⟩
  · rw [step_of_wellFormed hs (.inl hin) (wellFormed_read hoff halign), hostAccess_read hoff halign]
  · refine whileRunning_of_hostAccess (wellFormed_read hoff halign) (fun s hs => ?_) fun s => rfl
    have hrun : { s with phase := .run } = s := by rw [← hs]
    rw [hostAccess_read hoff halign, hrun]

/-! ### STATUS and SKIP -/

/-- The fields of a STATUS word in their places (10_state.md R27). -/
def packStatus (busy done overrun : Bool) (err : BitVec 4) (opcode : Byte) : Word :=
  (BitVec.ofBool busy).setWidth 32 ||| ((BitVec.ofBool done).setWidth 32 <<< 1)
    ||| ((BitVec.ofBool overrun).setWidth 32 <<< 2) ||| (err.setWidth 32 <<< 4) ||| (opcode.setWidth 32 <<< 8)

theorem statusWord_eq_packStatus (s : State) :
    statusWord s = packStatus s.busy s.done s.overrun s.err.code s.opcode := rfl

theorem packStatus_fields (busy done overrun : Bool) (err : BitVec 4) (opcode : Byte) :
    let w := packStatus busy done overrun err opcode
    w.getLsbD 0 = busy ∧ w.getLsbD 1 = done ∧ w.getLsbD 2 = overrun ∧ w.getLsbD 3 = false ∧
      w.extractLsb' 4 4 = err ∧ w.extractLsb' 8 8 = opcode ∧ w.extractLsb' 16 16 = 0#16 := by
  unfold packStatus
  refine ⟨?_, ?_, ?_, ?_, ?_, ?_, ?_⟩
  · simp
  · simp
  · simp
  · simp
  · ext i hi; interval_cases i <;> simp
  · ext i hi; interval_cases i <;> simp
  · ext i hi; interval_cases i <;> simp

/-- Four 4-bit fields from bit 0 on, as the SKIP word holds them (10_state.md R21). -/
def packNibbles (a b c d : Nibble) : Word :=
  a.setWidth 32 ||| (b.setWidth 32 <<< 4) ||| (c.setWidth 32 <<< 8) ||| (d.setWidth 32 <<< 12)

theorem packNibbles_fields (a b c d : Nibble) :
    let w := packNibbles a b c d
    w.extractLsb' 0 4 = a ∧ w.extractLsb' 4 4 = b ∧ w.extractLsb' 8 4 = c ∧ w.extractLsb' 12 4 = d ∧
      w.extractLsb' 16 16 = 0#16 := by
  unfold packNibbles
  refine ⟨?_, ?_, ?_, ?_, ?_⟩ <;> · ext i hi; interval_cases i <;> simp

/-- A binning factor fits its field (10_state.md R29). -/
theorem setWidth_ofNat_binOf (n : Nat) : (BitVec.ofNat 4 (binOf n)).setWidth 32 = BitVec.ofNat 32 (binOf n) := by
  have hbin : binOf n ≤ 3 := Nat.min_le_right _ _
  apply BitVec.eq_of_toNat_eq
  simp only [BitVec.toNat_setWidth, BitVec.toNat_ofNat]
  omega

theorem skipWord_eq_packNibbles (s : State) :
    skipWord s = packNibbles s.xskip s.yskip (BitVec.ofNat 4 (binOf s.xskip.toNat))
      (BitVec.ofNat 4 (binOf s.yskip.toNat)) := by
  rw [packNibbles, setWidth_ofNat_binOf, setWidth_ofNat_binOf]
  rfl

/-- Settles O12. -/
theorem statusAndSkipBits : Obligations.StatusAndSkipBits := by
  refine ⟨⟨rfl, rfl, rfl, rfl, rfl, rfl⟩, fun s => ?_⟩
  obtain ⟨hbusy, hdone, hoverrun, hzero, herr, hop, hhigh⟩ :=
    packStatus_fields s.busy s.done s.overrun s.err.code s.opcode
  obtain ⟨hx, hy, hxbin, hybin, hrest⟩ := packNibbles_fields s.xskip s.yskip (BitVec.ofNat 4 (binOf s.xskip.toNat))
    (BitVec.ofNat 4 (binOf s.yskip.toNat))
  have hbin (n : Nat) : (BitVec.ofNat 4 (binOf n)).toNat = min n 3 := toNat_ofNat_of_lt (by
    have : binOf n ≤ 3 := Nat.min_le_right _ _
    omega)
  rw [statusWord_eq_packStatus, skipWord_eq_packNibbles, hbusy, hxbin, hybin, hbin, hbin, State.busy, beq_iff_eq]
  exact ⟨Iff.rfl, hdone, hoverrun, hzero, herr, hop, hhigh, hx, hy, rfl, rfl, hrest⟩

/-! ### Reset -/

/-- Settles O15. -/
theorem resetStateHoldsTheSpecValues : Obligations.ResetStateHoldsTheSpecValues := by
  refine ⟨rfl, rfl, rfl, by decide, by decide, rfl, rfl, rfl, rfl, rfl, rfl, rfl, by decide, rfl, rfl, rfl, rfl, rfl⟩

/-- Settles O16: the reset is the first input that lands. -/
theorem resetInputRestoresTheResetState : Obligations.ResetInputRestoresTheResetState := by
  intro s rest hin
  refine ⟨fun i => ?_, fun hs => ?_⟩
  · have hsettle : settle (beginRun s) = .reset (freshAfter s rest) := by
      simp only [settle, beginRun_inputs, hin, landBusy]
      rfl
    rw [exec_eq]
    simp only [runCommand, andThen_of_reset hsettle]
  · simp only [step, hs, idleStep, hin]
    rfl

end Sys2Proof.Machine
end

section
/-! PROOFS. DRP_READ, DRP_WRITE, the busy wait's budget, and the clock-generator control commands (41_drp.md, 43_mmcm_encoder.md
R158 to R161): each sequence is run on the answers it is given, and completed. -/

namespace Sys2Proof.Machine

/-! ### Completing a sequence -/

/-- A sequence that staged the results `ws` completes OK with them (60_exceptions.md R246). -/
theorem exec_of_ok {i : Instr} {s u t : State} (hl : landedState s = some u) (hb : bodyOf i u = .ok () t)
    (ws : List (Fin 8 × Word)) (hr : t.stagedRes = u.stagedRes ++ ws) (hs : t.stagedState = u.stagedState) :
    exec i s = .next (afterOk t (ws.foldl commitRes t.res)) := by
  obtain ⟨hres, hstate⟩ := nothingStaged_of_landed hl
  rw [exec_eq, runCommand_ok hl hb, completeOk_staged ws (by rw [hr, hres, List.nil_append]) (hs.trans hstate)]

/-- A sequence that only stages the results `ws` completes OK with just them. -/
theorem exec_of_stageResults {i : Instr} {s u : State} {ws : List (Fin 8 × Word)} (hl : landedState s = some u)
    (hb : bodyOf i u = stageResults ws u) : exec i s = .next (afterOk u (ws.foldl commitRes u.res)) := by
  rw [stageResults_eq] at hb
  exact exec_of_ok hl hb ws rfl rfl

/-- A sequence that raised an error completes with it (60_exceptions.md R245). -/
theorem exec_of_raise {i : Instr} {s u t : State} {e : Err} (hl : landedState s = some u)
    (hb : bodyOf i u = .raise e t) : exec i s = .next (afterErr t e.errCode e.info) := by
  rw [exec_eq, runCommand_raise hl hb, completeErr_eq]

/-- A sequence that a reset abandoned leaves what the reset left (70_reset_and_hazards.md R270). -/
theorem exec_of_reset {i : Instr} {s u t : State} (hl : landedState s = some u) (hb : bodyOf i u = .reset t) :
    exec i s = .next t := by
  rw [exec_eq, runCommand_reset hl hb]

/-! ### The control word -/

/-- Settles O18. -/
theorem controlWordFields : Obligations.ControlWordFields := by
  intro read idx data
  unfold ctrlWord
  refine ⟨?_, ?_, ?_, ?_, ?_⟩
  · ext i hi; interval_cases i <;> simp
  · simp
  · simp
  · ext i hi; interval_cases i <;> simp
  · ext i hi; interval_cases i <;> simp

/-- An index that passes its check is the whole argument (30_encoding.md R71). -/
theorem setWidth_index {w : Word} (h : w.toNat < 0x1000) : (w.extractLsb' 0 12).setWidth 32 = w := by
  apply BitVec.eq_of_toNat_eq
  rw [BitVec.toNat_setWidth, BitVec.extractLsb'_toNat, Nat.shiftRight_zero]
  omega

/-! ### DRP_READ -/

theorem drpReadBody_of_lt {u : State} (h : (u.latch.get 0).toNat < 0x1000) :
    drpReadBody u = (drpRead ((u.latch.get 0).extractLsb' 0 12)).bind (fun v => stageRes 0 (v.setWidth 32)) u := by
  rw [drpReadBody, bind_of_ok (argIdx12_of_lt h)]

/-- Settles O19: the two busy waits and the control word between them, then the last status staged. -/
theorem drpReadReturnsTheFirstIdleStatus : Obligations.DrpReadReturnsTheFirstIdleStatus := by
  refine fun s u hl => ⟨fun h => ?_, fun r rest h hr hin => ?_⟩
  · exact exec_of_raise hl (i := .drpRead) (bind_of_raise (argIdx12_of_ge h))
  · obtain ⟨k, hk⟩ := drpRead_ok ((u.latch.get 0).extractLsb' 0 12) r hr hin
    have hb : bodyOf .drpRead u = _ := (drpReadBody_of_lt h).trans (bind_of_ok hk)
    exact exec_of_ok hl hb [(0, r.value.setWidth 32)] rfl rfl

/-! ### DRP_WRITE -/

theorem drpWriteBody_of_lt {u : State} (h0 : (u.latch.get 0).toNat < 0x1000) (h1 : (u.latch.get 1).toNat < 0x10000)
    (h2 : (u.latch.get 2).toNat < 0x10000) :
    drpWriteBody u = drpWrite ((u.latch.get 0).extractLsb' 0 12) ((u.latch.get 1).extractLsb' 0 16)
      ((u.latch.get 2).extractLsb' 0 16) u := by
  rw [drpWriteBody, bind_of_ok (argIdx12_of_lt h0), bind_of_ok (argU16_of_lt h1), bind_of_ok (argU16_of_lt h2)]

/-- An operand out of its form is rejected, the first such one (30_encoding.md R71). -/
theorem drpWriteBody_rejects {u : State} (h : 0x1000 ≤ (u.latch.get 0).toNat ∨ 0x10000 ≤ (u.latch.get 1).toNat ∨
    0x10000 ≤ (u.latch.get 2).toNat) : drpWriteBody u = .raise .invalidRequest u := by
  rw [drpWriteBody]
  obtain h0 | h0 := Nat.lt_or_ge (u.latch.get 0).toNat 0x1000
  · rw [bind_of_ok (argIdx12_of_lt h0)]
    obtain h1 | h1 := Nat.lt_or_ge (u.latch.get 1).toNat 0x10000
    · rw [bind_of_ok (argU16_of_lt h1)]
      exact bind_of_raise (argU16_of_ge (by omega))
    · exact bind_of_raise (argU16_of_ge h1)
  · exact bind_of_raise (argIdx12_of_ge h0)

/-- Settles O20. -/
theorem drpWriteWithFullMaskMakesNoRead : Obligations.DrpWriteWithFullMaskMakesNoRead := by
  refine fun s u hl => ⟨fun h => exec_of_raise hl (i := .drpWrite) (drpWriteBody_rejects h), fun p ack rest h0 h1 h2 hp hin => ?_⟩
  have hmask : (u.latch.get 2).extractLsb' 0 16 = 0xFFFF#16 := by rw [h2]; decide
  obtain ⟨k, hk⟩ := drpWrite_full ((u.latch.get 0).extractLsb' 0 12) ((u.latch.get 1).extractLsb' 0 16) p hp hin
  have hb : bodyOf .drpWrite u = _ := (drpWriteBody_of_lt h0 h1 (by rw [h2]; decide)).trans (hmask ▸ hk)
  exact exec_of_ok hl hb [] (List.append_nil _).symm rfl

/-- Settles O21. -/
theorem drpWriteUpdatesTheMaskedBits : Obligations.DrpWriteUpdatesTheMaskedBits := by
  intro s u w rest hl h0 h1 h2 hw hin
  have hmask : (u.latch.get 2).extractLsb' 0 16 ≠ 0xFFFF#16 := by
    intro h
    have hnat := congrArg BitVec.toNat h
    rw [BitVec.extractLsb'_toNat, Nat.shiftRight_zero, BitVec.toNat_ofNat] at hnat
    omega
  obtain ⟨k, hk⟩ := drpWrite_masked ((u.latch.get 0).extractLsb' 0 12) ((u.latch.get 1).extractLsb' 0 16) _ hmask w hw
    hin
  have hb : bodyOf .drpWrite u = _ := (drpWriteBody_of_lt h0 h1 (by omega)).trans hk
  exact exec_of_ok hl hb [] (List.append_nil _).symm rfl

/-! ### A reset among the accesses -/

theorem memWrite_issued_reset {p : Port} {addr v : Word} {s : State} {rest : List Input}
    (h : s.inputs = .issued :: .reset :: rest) :
    memWrite p addr v s = .reset (freshAfter (ran s [⟨p, addr, .write v, .unanswered⟩] rest) rest) :=
  bind_of_reset (transact_issued_reset h)

theorem memWrite_reset {p : Port} {addr v : Word} {s : State} {rest : List Input} (h : s.inputs = .reset :: rest) :
    memWrite p addr v s = .reset (freshAfter s rest) := bind_of_reset (transact_reset h)

/-- A first status that is not busy, then the rest of DRP_READ. -/
theorem drpReadBody_of_idle {u : State} {v : Word} {rest : List Input} (h : (u.latch.get 0).toNat < 0x1000)
    (hv : v.getLsbD 16 = false) (hin : u.inputs = .answer (.value v) :: rest) {t : State}
    (hw : ∀ k, memWrite .clk drpCntrl (ctrlWord true ((u.latch.get 0).extractLsb' 0 12) 0#16)
      (counted k (ran u [⟨.clk, 0x74#32, .read, .value v⟩] rest)) = .reset t) :
    drpReadBody u = .reset t := by
  obtain ⟨k, hk⟩ := busyWait_ok ⟨[], v⟩ ⟨Nat.zero_lt_succ _, nofun, hv⟩ (s := u) (rest := rest) hin
  have hread : drpRead ((u.latch.get 0).extractLsb' 0 12) u = .reset t :=
    (andThen_of_ok hk).trans (andThen_of_reset (hw k))
  exact (drpReadBody_of_lt h).trans (bind_of_reset hread)

/-- Settles O17. -/
theorem resetInFlightAbandonsTheCommand : Obligations.ResetInFlightAbandonsTheCommand := by
  refine ⟨fun p addr op s rest => ⟨transact_issued_reset, transact_reset⟩, fun s u rest hl hin => ?_,
    fun s u v rest hl h hv => ⟨fun hin => ?_, fun hin => ?_⟩⟩
  · exact exec_of_reset hl (memWrite_issued_reset hin)
  · rw [← List.singleton_append, ← ran_ran u _ _ (.issued :: .reset :: rest), ← setWidth_index h, ← ctrlWord_read]
    exact exec_of_reset hl (drpReadBody_of_idle h hv hin fun k => memWrite_issued_reset rfl)
  · exact exec_of_reset hl (drpReadBody_of_idle h hv hin fun k => memWrite_reset rfl)

/-! ### The busy wait's budget -/

/-- A sequence of sub-writes starts with a busy wait, and ends with the error that one raises (43_mmcm_encoder.md
R154). -/
theorem programSequence_of_raise {d m dout : Nat} {s t : State} {e : Err} (h : busyWait s = .raise e t) :
    programSequence psme d m dout s = .raise e t := by
  have hw (idx : SubIndex) (value mask : Half) : drpWrite idx value mask s = .raise e t := andThen_of_raise h
  exact andThen_of_raise (hw _ _ _)

theorem checkAndScale_of_le {p t : Nat} (hp : p ≠ 0) (ht : 1000 ≤ t) : checkAndScale p t = some (p / 1000, t / 1000) := by
  have hzero : ¬ (p = 0 ∨ t = 0) := by omega
  have hsmall : ¬ t / kHz = 0 := by rw [kHz]; omega
  rw [checkAndScale, if_neg hzero, if_neg hsmall, kHz]

theorem checkAndScale_rejects {p t : Nat} (h : p = 0 ∨ t < 1000) : checkAndScale p t = none := by
  rw [checkAndScale]
  split
  next => rfl
  next hzero => rw [if_pos (by rw [kHz]; omega)]

/-- A request with a solution: the search's working values are noted (42_pll_solver.md R124). -/
theorem solve_of_some {p t : Nat} {b : Best} (hp : p ≠ 0) (ht : 1000 ≤ t)
    (hb : search psme (p / 1000) (t / 1000) = some b) (s : State) :
    solve psme p t s = .ok b { s with search := some b } := by
  rw [solve, checkAndScale_of_le hp ht, orRaise, ret_bind, hb]
  rfl

theorem solve_of_none {p t : Nat} (hp : p ≠ 0) (ht : 1000 ≤ t) (hb : search psme (p / 1000) (t / 1000) = none)
    (s : State) : solve psme p t s = .raise .noFeasibleSolution s := by
  rw [solve, checkAndScale_of_le hp ht, orRaise, ret_bind, hb]
  rfl

theorem solve_rejects {p t : Nat} (h : p = 0 ∨ t < 1000) (s : State) : solve psme p t s = .raise .invalidRequest s := by
  rw [solve, checkAndScale_rejects h]
  rfl

/-- PLL_PROGRAM's range check, then its zero check, then the sub-writes (43_mmcm_encoder.md R156). -/
theorem pllProgramBody_eq {u : State} {d m dout : Nat} (hd : (u.latch.get 0).toNat = d) (hm : (u.latch.get 1).toNat = m)
    (hdout : (u.latch.get 2).toNat = dout) :
    pllProgramBody psme u = (require (decide (d ≤ 80 ∧ m ≤ 64 ∧ dout ≤ 128)) .invalidRequest).andThen
      ((require (decide (d ≠ 0 ∧ m ≠ 0 ∧ dout ≠ 0)) .noFeasibleSolution).andThen (programSequence psme d m dout)) u := by
  rw [← hd, ← hm, ← hdout]
  rfl

theorem pllProgramBody_of_range {u : State} (hd : 1 ≤ (u.latch.get 0).toNat) (hd' : (u.latch.get 0).toNat ≤ 80)
    (hm : 1 ≤ (u.latch.get 1).toNat) (hm' : (u.latch.get 1).toNat ≤ 64) (hdout : 1 ≤ (u.latch.get 2).toNat)
    (hdout' : (u.latch.get 2).toNat ≤ 128) :
    pllProgramBody psme u =
      programSequence psme (u.latch.get 0).toNat (u.latch.get 1).toNat (u.latch.get 2).toNat u := by
  rw [pllProgramBody_eq rfl rfl rfl, require_of_true (decide_eq_true ⟨hd', hm', hdout'⟩), ret_andThen,
    require_of_true (decide_eq_true ⟨by omega, by omega, by omega⟩), ret_andThen]

/-- PLL_SET_RATE from a request with a solution (43_mmcm_encoder.md R157). -/
theorem pllSetRateBody_of_some {u : State} {b : Best} (hp : (u.latch.get 0).toNat ≠ 0)
    (ht : 1000 ≤ (u.latch.get 1).toNat)
    (hb : search psme ((u.latch.get 0).toNat / 1000) ((u.latch.get 1).toNat / 1000) = some b) :
    pllSetRateBody psme u = (programSequence psme b.d.toNat b.m.toNat b.dout.toNat).andThen
      (stageResults (solveResults (u.latch.get 0).toNat b)) { u with search := some b } := by
  rw [pllSetRateBody, argU32_bind, argU32_bind, bind_of_ok (solve_of_some hp ht hb u)]

/-- PLL_RECALC_RATE's three reads, in their order (43_mmcm_encoder.md R163). -/
theorem pllRecalcRateBody_eq (u : State) :
    pllRecalcRateBody psme u =
      (drpRead 0x08#12).bind (fun out => (drpRead 0x16#12).bind fun main => (drpRead 0x14#12).bind fun feedback =>
        stageRes 0 (BitVec.ofNat 32 (recalculated (u.latch.get 0).toNat (decodeDivider main) (decodeDivider feedback)
          (decodeDivider out)))) u := rfl

/-- Settles O22: whichever command waits, the busy wait that times out ends it. -/
theorem busyWaitTimesOutAfterTheBudget : Obligations.BusyWaitTimesOutAfterTheBudget := by
  intro bs hn hbusy answers reads
  have htimeout (s : State) (rest : List Input) (hin : s.inputs = answers ++ rest) :
      busyWait s = .raise (.timeout .clk 0x74#32) (counted 10000 (ran s reads rest)) :=
    busyWait_timeout bs hn hbusy hin
  refine ⟨htimeout, fun s u rest hl hin => ?_, fun s u p ack rest hl h hp hin => ?_⟩
  · intro a timedOut
    have hwait := htimeout u rest hin
    refine ⟨fun h0 => ?_, fun h0 h1 h2 => ?_, fun hd hd' hm hm' hdout hdout' => ?_, fun b hp ht hb => ?_, ?_⟩
    · exact exec_of_raise hl (i := .drpRead) ((drpReadBody_of_lt h0).trans (bind_of_raise (andThen_of_raise hwait)))
    · exact exec_of_raise hl (i := .drpWrite) ((drpWriteBody_of_lt h0 h1 h2).trans (andThen_of_raise hwait))
    · exact exec_of_raise hl (i := .pllProgram)
        ((pllProgramBody_of_range hd hd' hm hm' hdout hdout').trans (programSequence_of_raise hwait))
    · have hwait' := htimeout { u with search := some b } rest hin
      exact exec_of_raise hl (i := .pllSetRate)
        ((pllSetRateBody_of_some hp ht hb).trans (andThen_of_raise (programSequence_of_raise hwait')))
    · exact exec_of_raise hl (i := .pllRecalcRate)
        ((pllRecalcRateBody_eq u).trans (bind_of_raise (andThen_of_raise hwait)))
  · obtain ⟨k, hk⟩ := busyWait_ok p hp (s := u) (rest := .answer (.value ack) :: (answers ++ rest)) (by simpa using hin)
    have hwrite := memWrite_value (p := .clk) (addr := drpCntrl)
      (v := ctrlWord true ((u.latch.get 0).extractLsb' 0 12) 0#16) (ack := ack) (rest := answers ++ rest)
      (s := counted k (ran u p.trace (.answer (.value ack) :: (answers ++ rest)))) rfl
    have hread : drpRead ((u.latch.get 0).extractLsb' 0 12) u = _ :=
      (andThen_of_ok hk).trans ((andThen_of_ok hwrite).trans (htimeout _ rest rfl))
    have hword := ctrlWord_read ((u.latch.get 0).extractLsb' 0 12)
    rw [setWidth_index h] at hword
    rw [exec_of_raise hl (i := .drpRead) ((drpReadBody_of_lt h).trans (bind_of_raise hread)), hword]
    simp only [ran_counted, ran_ran, List.append_assoc, List.singleton_append]
    rfl

/-! ### Clock-generator control -/

/-- Settles O34. -/
theorem clkEnableAndDisableWriteResetControl : Obligations.ClkEnableAndDisableWriteResetControl := by
  refine ⟨rfl, rfl, fun s u rest hl => ⟨fun ack hin => ⟨?_, ?_⟩, fun hin => ⟨?_, ?_⟩⟩⟩
  · exact exec_of_ok hl (i := .clkEnable) (memWrite_value hin) [] (List.append_nil _).symm rfl
  · exact exec_of_ok hl (i := .clkDisable) (memWrite_value hin) [] (List.append_nil _).symm rfl
  · exact exec_of_raise hl (i := .clkEnable) (memWrite_ioError hin)
  · exact exec_of_raise hl (i := .clkDisable) (memWrite_ioError hin)

theorem clkSetParentBody_of_lt {u : State} (h : (u.latch.get 0).toNat < 2) :
    clkSetParentBody u = memWrite .clk clkSel (u.latch.get 0) u := by
  have hok : decide ((u.latch.get 0).toNat < numParents) = true := decide_eq_true h
  rw [clkSetParentBody, argWord_bind, require_of_true hok, ret_andThen]

theorem clkSetParentBody_rejects {u : State} (h : 2 ≤ (u.latch.get 0).toNat) :
    clkSetParentBody u = .raise .invalidRequest u := by
  have hbad : decide ((u.latch.get 0).toNat < numParents) = false := decide_eq_false (Nat.not_lt.mpr h)
  rw [clkSetParentBody, argWord_bind, require_of_false hbad, raise_andThen]
  rfl

/-- Settles O35. -/
theorem clkParentCommandsAccessTheSelect : Obligations.ClkParentCommandsAccessTheSelect := by
  refine fun s u hl => ⟨fun h => ?_, fun ack rest h hin => ?_, fun v rest hin => ?_, fun rest hin => ⟨fun h => ?_, ?_⟩⟩
  · exact exec_of_raise hl (i := .clkSetParent) (clkSetParentBody_rejects h)
  · exact exec_of_ok hl (i := .clkSetParent) ((clkSetParentBody_of_lt h).trans (memWrite_value hin)) []
      (List.append_nil _).symm rfl
  · exact exec_of_ok hl (i := .clkGetParent) (bind_of_ok (memRead_clk_value hin)) [(0, v)] rfl rfl
  · exact exec_of_raise hl (i := .clkSetParent) ((clkSetParentBody_of_lt h).trans (memWrite_ioError hin))
  · exact exec_of_raise hl (i := .clkGetParent) (bind_of_raise (memRead_ioError hin))

end Sys2Proof.Machine
end

section
/-! PROOFS. The PLL search (42_pll_solver.md R121 to R126). Its two loops visit pairs in the order smallest `m`, then
smallest `d`, and keep the first of least error among those visited; the bounds make the visited pairs the feasible
ones. -/

namespace Sys2Proof.Machine

/-! ### The first of least error -/

/-- `(m, d)` comes no later than `(m', d')` in the order of the search (42_pll_solver.md R125). -/
def NoLater (m d m' d' : Nat) : Prop := m < m' ∨ m = m' ∧ d ≤ d'

/-- `best` is the candidate of the first pair of least error among the pairs of `P`, `none` when there is none. -/
def IsBest (fin fout : Nat) (P : Nat → Nat → Prop) : Option Best → Prop
  | none => ∀ m d, ¬ P m d
  | some b => ∃ m d, P m d ∧ b = candidate fin fout m d ∧
      ∀ m' d', P m' d' → b.err ≤ (candidate fin fout m' d').err ∧
        ((candidate fin fout m' d').err = b.err → NoLater m d m' d')

section
variable {fin fout : Nat} {P Q : Nat → Nat → Prop}

theorem IsBest.congr {best : Option Best} (h : IsBest fin fout P best) (hPQ : ∀ m d, P m d ↔ Q m d) :
    IsBest fin fout Q best := by
  obtain rfl : P = Q := funext fun m => funext fun d => propext (hPQ m d)
  exact h

/-- Visiting one more pair, after all the others (42_pll_solver.md R124, R125). -/
theorem IsBest.keepBetter {best : Option Best} {m d : Nat} (h : IsBest fin fout P best)
    (hlast : ∀ m' d', P m' d' → NoLater m' d' m d) :
    IsBest fin fout (fun m' d' => P m' d' ∨ m' = m ∧ d' = d) (keepBetter best (candidate fin fout m d)) := by
  cases best with
  | none =>
    refine ⟨m, d, .inr ⟨rfl, rfl⟩, rfl, fun m' d' hp => ?_⟩
    obtain hp | ⟨rfl, rfl⟩ := hp
    · exact absurd hp (h m' d')
    · exact ⟨le_refl _, fun _ => .inr ⟨rfl, le_refl _⟩⟩
  | some b =>
    obtain ⟨mb, db, hb, rfl, hmin⟩ := h
    rw [Machine.keepBetter]
    split
    next hlt =>
      refine ⟨m, d, .inr ⟨rfl, rfl⟩, rfl, fun m' d' hp => ?_⟩
      obtain hp | ⟨rfl, rfl⟩ := hp
      · obtain ⟨hle, -⟩ := hmin m' d' hp
        exact ⟨by omega, fun heq => by omega⟩
      · exact ⟨le_refl _, fun _ => .inr ⟨rfl, le_refl _⟩⟩
    next hge =>
      refine ⟨mb, db, .inl hb, rfl, fun m' d' hp => ?_⟩
      obtain hp | ⟨rfl, rfl⟩ := hp
      · exact hmin m' d' hp
      · exact ⟨by omega, fun _ => hlast mb db hb⟩

/-- No later pair replaces an exact match (42_pll_solver.md R124). -/
theorem IsBest.of_exact {best : Option Best} (h : IsBest fin fout P best) (hexact : isExact best = true)
    (hsub : ∀ m d, P m d → Q m d) (hlater : ∀ m d m' d', P m d → Q m' d' → P m' d' ∨ NoLater m d m' d') :
    IsBest fin fout Q best := by
  cases best with
  | none => cases hexact
  | some b =>
    obtain ⟨m, d, hp, rfl, hmin⟩ := h
    have hzero : (candidate fin fout m d).err = 0 := eq_of_beq hexact
    refine ⟨m, d, hsub m d hp, rfl, fun m' d' hq => ⟨by omega, fun heq => ?_⟩⟩
    obtain hp' | hlater := hlater m d m' d' hp hq
    · exact (hmin m' d' hp').2 heq
    · exact hlater

/-! ### The loops -/

/-- The inner loop visits `n` pairs of this `m`, from `d` on (42_pll_solver.md R124). -/
theorem IsBest.searchD {m n d : Nat} {best : Option Best} (h : IsBest fin fout P best)
    (hbefore : ∀ m' d', P m' d' → m' < m ∨ m' = m ∧ d' < d) :
    IsBest fin fout (fun m' d' => P m' d' ∨ m' = m ∧ d ≤ d' ∧ d' < d + n) (searchD fin fout m n d best) := by
  induction n generalizing d P best with
  | zero => exact h.congr fun m' d' => ⟨.inl, fun h => h.elim id fun ⟨_, _, _⟩ => by omega⟩
  | succ n ih =>
    have hstep := h.keepBetter (m := m) (d := d) fun m' d' hp => (hbefore m' d' hp).imp_right fun ⟨hm, hd⟩ => ⟨hm, hd.le⟩
    rw [Machine.searchD]
    split
    next hexact =>
      refine hstep.of_exact hexact (fun m' d' hp => hp.imp_right fun ⟨hm, hd⟩ => ⟨hm, by omega, by omega⟩) ?_
      intro m₁ d₁ m₂ d₂ h₁ h₂
      obtain h₂ | ⟨hm₂, hd₂, -⟩ := h₂
      · exact .inl (.inl h₂)
      · obtain h₁ | ⟨hm₁, hd₁⟩ := h₁
        · have := hbefore m₁ d₁ h₁
          exact .inr (by unfold NoLater; omega)
        · exact .inr (.inr ⟨hm₁.trans hm₂.symm, by omega⟩)
    next =>
      have hnext := ih (d := d + 1) hstep fun m' d' hp => by
        obtain hp | ⟨hm, hd⟩ := hp
        · have := hbefore m' d' hp; omega
        · omega
      refine hnext.congr fun m' d' => ?_
      rw [or_assoc]
      exact or_congr_right ⟨fun h => by omega, fun h => by omega⟩

/-- The outer loop visits, for `n` values of `m`, the pairs within that `m`'s bounds (42_pll_solver.md R124). -/
theorem IsBest.searchM {dMn dMx m n : Nat} {best : Option Best} (h : IsBest fin fout P best)
    (hbefore : ∀ m' d', P m' d' → m' < m) :
    IsBest fin fout (fun m' d' => P m' d' ∨ (m ≤ m' ∧ m' < m + n) ∧ dLowOf fin m' dMn ≤ d' ∧ d' ≤ dHighOf fin m' dMx)
      (searchM fin fout dMn dMx n m best) := by
  induction n generalizing m P best with
  | zero => exact h.congr fun m' d' => ⟨.inl, fun h => h.elim id fun ⟨_, _⟩ => by omega⟩
  | succ n ih =>
    have hrow := h.searchD (m := m) (n := dHighOf fin m dMx + 1 - dLowOf fin m dMn) (d := dLowOf fin m dMn)
      fun m' d' hp => .inl (hbefore m' d' hp)
    have hstep := hrow.congr (Q := fun m' d' => P m' d' ∨ m' = m ∧ dLowOf fin m' dMn ≤ d' ∧ d' ≤ dHighOf fin m' dMx)
      fun m' d' => or_congr_right <| and_congr_right fun hm => by rw [hm]; omega
    rw [Machine.searchM]
    split
    next hexact =>
      refine hstep.of_exact hexact (fun m' d' hp => hp.imp_right fun ⟨hm, hd⟩ => ⟨by omega, hd⟩) ?_
      intro m₁ d₁ m₂ d₂ h₁ h₂
      obtain h₂ | ⟨hm₂, hd₂⟩ := h₂
      · exact .inl (.inl h₂)
      · obtain hm₂ | hm₂ : m₂ = m ∨ m < m₂ := by omega
        · exact .inl (.inr ⟨hm₂, hd₂⟩)
        · obtain h₁ | ⟨hm₁, -⟩ := h₁
          · have := hbefore m₁ d₁ h₁
            exact .inr (.inl (by omega))
          · exact .inr (.inl (by omega))
    next =>
      have hnext := ih (m := m + 1) hstep fun m' d' hp => by
        obtain hp | ⟨hm, -⟩ := hp
        · have := hbefore m' d' hp; omega
        · omega
      refine hnext.congr fun m' d' => ?_
      rw [or_assoc]
      refine or_congr_right ?_
      rw [← or_and_right]
      exact and_congr_left fun _ => by omega

end

/-! ### The bounds -/

theorem ceilDiv_le_iff {a b c : Nat} (hb : 0 < b) : ceilDiv a b ≤ c ↔ a ≤ c * b := by
  rw [ceilDiv, ← Nat.lt_succ_iff, Nat.div_lt_iff_lt_mul hb, Nat.succ_mul]
  omega

/-- The bounds on `d` are those of the reference frequency (42_pll_solver.md R121, R122). -/
theorem dBounds_iff (fin d : Nat) :
    dMinOf fin ≤ d ∧ d ≤ dMaxOf fin ↔ 1 ≤ d ∧ d ≤ 80 ∧ 10000 * d ≤ fin ∧ fin ≤ 300000 * d := by
  have hlow : ceilDiv fin fpfdMax ≤ d ↔ fin ≤ d * 300000 := ceilDiv_le_iff (by decide)
  have hhigh : d ≤ fin / fpfdMin ↔ d * 10000 ≤ fin := Nat.le_div_iff_mul_le (by decide)
  rw [dMinOf, dMaxOf, Nat.max_le, Nat.le_min, hlow, hhigh, dMax]
  omega

/-- The bounds on `d` at one `m` add those of the VCO frequency (42_pll_solver.md R121, R124). -/
theorem rowBounds_iff (fin m d : Nat) :
    dLowOf fin m (dMinOf fin) ≤ d ∧ d ≤ dHighOf fin m (dMaxOf fin) ↔
      (dMinOf fin ≤ d ∧ d ≤ dMaxOf fin) ∧ 600000 * d ≤ fin * m ∧ fin * m ≤ 1200000 * d := by
  have hlow : ceilDiv (fin * m) fvcoMax ≤ d ↔ fin * m ≤ d * 1200000 := ceilDiv_le_iff (by decide)
  have hhigh : d ≤ fin * m / fvcoMin ↔ d * 600000 ≤ fin * m := Nat.le_div_iff_mul_le (by decide)
  rw [dLowOf, dHighOf, Nat.max_le, Nat.le_min, hlow, hhigh]
  omega

/-- With the exact bounds no feasible `m` is left out (42_pll_solver.md R123). -/
theorem mBounds_of_feasible {fin d m : Nat} (h : Feasible fin d m) :
    mMinOf .exact fin (dMinOf fin) ≤ m ∧ m ≤ mMaxOf fin (dMaxOf fin) := by
  obtain ⟨hd1, hd80, hm1, hm64, hlow, hhigh, hvlow, hvhigh⟩ := h
  obtain ⟨hdmin, hdmax⟩ := (dBounds_iff fin d).mpr ⟨hd1, hd80, hlow, hhigh⟩
  have hfin : 0 < fin := by omega
  have hmin : fvcoMin * dMinOf fin ≤ m * fin :=
    calc fvcoMin * dMinOf fin
      _ ≤ 600000 * d := Nat.mul_le_mul_left _ hdmin
      _ ≤ fin * m := hvlow
      _ = m * fin := Nat.mul_comm _ _
  have hmax : m * fin ≤ fvcoMax * dMaxOf fin :=
    calc m * fin
      _ = fin * m := Nat.mul_comm _ _
      _ ≤ 1200000 * d := hvhigh
      _ ≤ fvcoMax * dMaxOf fin := Nat.mul_le_mul_left _ hdmax
  exact ⟨Nat.max_le.mpr ⟨(ceilDiv_le_iff hfin).mpr hmin, hm1⟩,
    Nat.le_min.mpr ⟨(Nat.le_div_iff_mul_le hfin).mpr hmax, hm64⟩⟩

/-- The pairs the search visits are the feasible ones (42_pll_solver.md R121 to R124). -/
theorem visited_iff_feasible (fin m d : Nat) :
    (mMinOf .exact fin (dMinOf fin) ≤ m ∧ m ≤ mMaxOf fin (dMaxOf fin)) ∧
        dLowOf fin m (dMinOf fin) ≤ d ∧ d ≤ dHighOf fin m (dMaxOf fin) ↔ Feasible fin d m := by
  rw [rowBounds_iff, dBounds_iff]
  constructor
  · rintro ⟨⟨hmin, hmax⟩, ⟨hd1, hd80, hlow, hhigh⟩, hvlow, hvhigh⟩
    obtain ⟨-, hm1⟩ := Nat.max_le.mp hmin
    obtain ⟨-, hm64⟩ := Nat.le_min.mp hmax
    exact ⟨hd1, hd80, hm1, hm64, hlow, hhigh, hvlow, hvhigh⟩
  · intro h
    obtain ⟨hd1, hd80, -, -, hlow, hhigh, hvlow, hvhigh⟩ := id h
    exact ⟨mBounds_of_feasible h, ⟨hd1, hd80, hlow, hhigh⟩, hvlow, hvhigh⟩

/-- The search answers the first feasible pair of least error (42_pll_solver.md R124, R125). -/
theorem search_isBest (fin fout : Nat) : IsBest fin fout (fun m d => Feasible fin d m) (search psme fin fout) := by
  have hnone : IsBest fin fout (fun _ _ => False) none := fun _ _ => id
  unfold search
  split
  next hempty =>
    intro m d h
    obtain ⟨hd1, hd80, -, -, hlow, hhigh, -, -⟩ := h
    have := (dBounds_iff fin d).mpr ⟨hd1, hd80, hlow, hhigh⟩
    omega
  next =>
    refine (hnone.searchM fun _ _ => False.elim).congr fun m d => ?_
    rw [false_or, ← visited_iff_feasible]
    exact and_congr_left fun _ => by
      have hmode : psme.mBoundMode = .exact := rfl
      rw [hmode]
      omega

/-! ### What the search returns -/

/-- The error the search compares is the pair's (42_pll_solver.md R124). -/
theorem candidate_err (fin fout m d : Nat) : (candidate fin fout m d).err = pairError fin fout d m := by
  have h : (candidate fin fout m d).err = absDiff (fin * m / d / nearestDout fin fout d m) fout := rfl
  rw [h, absDiff, pairError]
  omega

theorem nearestDout_bounds (fin fout d m : Nat) : 1 ≤ nearestDout fin fout d m ∧ nearestDout fin fout d m ≤ 128 := by
  rw [nearestDout]
  omega

/-- A feasible pair and its output divider are stored whole (10_state.md R43). -/
theorem candidate_stored {fin fout m d : Nat} (h : Feasible fin d m) :
    (candidate fin fout m d).d.toNat = d ∧ (candidate fin fout m d).m.toNat = m ∧
      (candidate fin fout m d).dout.toNat = nearestDout fin fout d m := by
  obtain ⟨-, hd80, -, hm64, -⟩ := h
  obtain ⟨-, hdout⟩ := nearestDout_bounds fin fout d m
  exact ⟨toNat_ofNat_of_lt (by omega), toNat_ofNat_of_lt (by omega),
    toNat_ofNat_of_lt (v := nearestDout fin fout d m) (by omega)⟩

/-- Settles O23. -/
theorem searchReturnsTheFirstBestFeasiblePair : Obligations.SearchReturnsTheFirstBestFeasiblePair := by
  intro fin fout b _ hb
  have hbest := search_isBest fin fout
  rw [hb] at hbest
  obtain ⟨m, d, hfeasible, rfl, hmin⟩ := hbest
  obtain ⟨hd, hm, hdout⟩ := candidate_stored (fout := fout) hfeasible
  obtain ⟨hdout1, hdout128⟩ := nearestDout_bounds fin fout d m
  rw [hd, hm, hdout]
  refine ⟨hfeasible, rfl, hdout1, hdout128, candidate_err fin fout m d, fun d' m' h' => ?_⟩
  rw [← candidate_err]
  exact hmin m' d' h'

/-- From 10 MHz up to the largest 32-bit parent rate there is a feasible pair (42_pll_solver.md R121): the least `d`
that the reference frequency allows, and the least `m` that the VCO frequency then allows. -/
theorem exists_feasible {fin : Nat} (hlow : 10000 ≤ fin) (hhigh : fin ≤ 4294967) : ∃ d m, Feasible fin d m := by
  obtain ⟨d, hd⟩ : ∃ d, d = (fin + 299999) / 300000 := ⟨_, rfl⟩
  obtain ⟨m, hm⟩ : ∃ m, m = ceilDiv (600000 * d) fin := ⟨_, rfl⟩
  have hfin : 0 < fin := by omega
  have hmlow : 600000 * d ≤ m * fin := (ceilDiv_le_iff hfin).mp hm.ge
  have hmhigh : m * fin < 600000 * d + fin := by
    have hdiv : m * fin ≤ 600000 * d + fin - 1 := by rw [hm]; exact Nat.div_mul_le_self _ _
    omega
  have hm1 : 1 ≤ m := Nat.pos_of_mul_pos_right (b := fin) (by omega)
  have hm64 : m ≤ 64 := by
    by_contra h
    have := Nat.mul_le_mul_right fin (show 65 ≤ m by omega)
    omega
  rw [Nat.mul_comm m fin] at hmlow hmhigh
  exact ⟨d, m, by omega, by omega, hm1, hm64, by omega, by omega, hmlow, by omega⟩

theorem search_eq_none_iff (fin fout : Nat) : search psme fin fout = none ↔ ∀ d m, ¬ Feasible fin d m := by
  have hbest := search_isBest fin fout
  cases hs : search psme fin fout with
  | none => rw [hs] at hbest; exact ⟨fun _ d m => hbest m d, fun _ => rfl⟩
  | some b =>
    rw [hs] at hbest
    obtain ⟨m, d, hfeasible, -⟩ := hbest
    exact ⟨nofun, fun h => absurd hfeasible (h d m)⟩

/-- Settles O24. -/
theorem searchFailsExactlyWhenNothingIsFeasible : Obligations.SearchFailsExactlyWhenNothingIsFeasible := by
  refine ⟨search_eq_none_iff, fun parent fout hparent => ?_⟩
  rw [search_eq_none_iff]
  refine ⟨fun h => ?_, fun h d m hf => ?_⟩
  · by_contra hlow
    obtain ⟨d, m, hf⟩ := exists_feasible (fin := parent / 1000) (by omega) (by omega)
    exact h d m hf
  · obtain ⟨hd1, -, -, -, hlow, -⟩ := hf
    omega

/-- The rate of a feasible pair before its output divider (42_pll_solver.md R126, R131): the VCO frequency in Hz, not
more than 1200 MHz and what the truncation to kHz lost. -/
theorem rate_lt_of_feasible {parent d m : Nat} (h : Feasible (parent / 1000) d m) : parent / d * m < 2 ^ 32 := by
  obtain ⟨hd1, -, -, hm64, -, -, -, hvhigh⟩ := h
  have hparent : parent ≤ 1000 * (parent / 1000) + 999 := by omega
  have hscaled : parent / d * m * d ≤ 1200000000 * d + 63936 :=
    calc parent / d * m * d
      _ = parent / d * d * m := Nat.mul_right_comm _ _ _
      _ ≤ parent * m := Nat.mul_le_mul_right _ (Nat.div_mul_le_self _ _)
      _ ≤ (1000 * (parent / 1000) + 999) * m := Nat.mul_le_mul_right _ hparent
      _ = 1000 * (parent / 1000 * m) + 999 * m := by ring
      _ ≤ 1200000000 * d + 63936 := by omega
  by_contra hge
  have := Nat.mul_le_mul_right d (Nat.not_lt.mp hge)
  omega

/-- Settles O25. -/
theorem achievedRateFitsItsRegister : Obligations.AchievedRateFitsItsRegister := by
  intro parent fout b hfout hb
  obtain ⟨hfeasible, -⟩ := searchReturnsTheFirstBestFeasiblePair _ _ _ hfout hb
  obtain ⟨hd1, -, -, -, -, -, hvlow, hvhigh⟩ := id hfeasible
  refine ⟨?_, ?_, rfl, ?_⟩
  · exact (Nat.le_div_iff_mul_le hd1).mpr hvlow
  · exact Nat.div_le_of_le_mul (hvhigh.trans (Nat.mul_comm _ _).le)
  · exact (Nat.div_le_self _ _).trans_lt (rate_lt_of_feasible hfeasible)

end Sys2Proof.Machine
end

section
/-! PROOFS. The PLL commands (42_pll_solver.md R127 to R129, 43_mmcm_encoder.md R150 to R157, R162, R163): the solver's
reports, the divider fields and their packing, the ten sub-writes, and the read-back. -/

namespace Sys2Proof.Machine

/-! ### The solver's reports -/

theorem pllSolveBody_eq (u : State) :
    pllSolveBody psme u = (solve psme (u.latch.get 0).toNat (u.latch.get 1).toNat).bind
      (fun b => stageResults (solveResults (u.latch.get 0).toNat b)) u := rfl

theorem pllRoundRateBody_eq (u : State) :
    pllRoundRateBody psme u = (solve psme (u.latch.get 0).toNat (u.latch.get 1).toNat).bind
      (fun b => stageRes 0 (BitVec.ofNat 32 (achievedBy (u.latch.get 0).toNat b))) u := rfl

theorem pllSetRateBody_eq (u : State) :
    pllSetRateBody psme u = (solve psme (u.latch.get 0).toNat (u.latch.get 1).toNat).bind
      (fun b => (programSequence psme b.d.toNat b.m.toNat b.dout.toNat).andThen
        (stageResults (solveResults (u.latch.get 0).toNat b))) u := rfl

/-- Settles O26. -/
theorem pllSolveReportsTheSearch : Obligations.PllSolveReportsTheSearch := by
  refine fun s u hl => ⟨fun h => ?_, fun hp ht hb => ?_, fun b hp ht hb => ?_⟩
  · exact exec_of_raise hl (i := .pllSolve) ((pllSolveBody_eq u).trans (bind_of_raise (solve_rejects h u)))
  · exact exec_of_raise hl (i := .pllSolve) ((pllSolveBody_eq u).trans (bind_of_raise (solve_of_none hp ht hb u)))
  · have hbody : bodyOf .pllSolve u = _ := (pllSolveBody_eq u).trans
      ((bind_of_ok (solve_of_some hp ht hb u)).trans (stageResults_eq _ _))
    exact exec_of_ok hl hbody (solveResults _ b) rfl rfl

/-- Settles O27. -/
theorem pllRoundRateReportsTheAchievedRate : Obligations.PllRoundRateReportsTheAchievedRate := by
  refine fun s u hl => ⟨fun h => ?_, fun hp ht hb => ?_, fun b hp ht hb => ?_⟩
  · exact exec_of_raise hl (i := .pllRoundRate) ((pllRoundRateBody_eq u).trans (bind_of_raise (solve_rejects h u)))
  · exact exec_of_raise hl (i := .pllRoundRate)
      ((pllRoundRateBody_eq u).trans (bind_of_raise (solve_of_none hp ht hb u)))
  · have hbody : bodyOf .pllRoundRate u = _ := (pllRoundRateBody_eq u).trans (bind_of_ok (solve_of_some hp ht hb u))
    exact exec_of_ok hl hbody [(0, BitVec.ofNat 32 (achievedBy (u.latch.get 0).toNat b))] rfl rfl

/-! ### The filter table -/

theorem filterTable_last : ∀ b ∈ filterTable, b.last ≤ 46 := by decide

/-- Past the last band the lookup is the default (10_state.md R36). -/
theorem filterFor_of_gt {i : Nat} (h : 46 < i) : filterFor psme i = filterDefault := by
  have hnone : psme.filterTable.find? (fun b => decide (b.first ≤ i) && decide (i ≤ b.last)) = none := by
    refine List.find?_eq_none.mpr fun b hb hband => ?_
    have hlast := filterTable_last b hb
    obtain ⟨-, hle⟩ := Bool.and_eq_true_iff.mp hband
    exact absurd (of_decide_eq_true hle) (by omega)
  rw [filterFor, hnone]

/-- The band that holds an index, its constant in each case (10_state.md R36). -/
theorem filterFor_eq (i : Nat) : filterFor psme i =
    if i = 0 then 0x01001990#32 else if i = 1 then 0x01001190#32 else if i = 2 then 0x01009890#32
    else if i = 3 then 0x01001890#32 else if i = 4 then 0x01008890#32 else if i ≤ 8 then 0x01009090#32
    else if i ≤ 11 then 0x01000890#32 else if i = 12 then 0x08009090#32 else if i ≤ 22 then 0x01001090#32
    else if i ≤ 36 then 0x01008090#32 else if i ≤ 46 then 0x08001090#32 else 0x08008090#32 := by
  obtain h | h := Nat.lt_or_ge 46 i
  · rw [filterFor_of_gt h, filterDefault]
    iterate 11 rw [if_neg (by omega)]
  · interval_cases i <;> rfl

/-- Settles O28. -/
theorem pllFilterLooksUpItsBand : Obligations.PllFilterLooksUpItsBand := by
  intro s u hl i
  have hbody : bodyOf .pllFilter u = stageRes 0 (filterFor psme i) u := rfl
  rw [← filterFor_eq]
  exact exec_of_ok hl hbody [(0, filterFor psme i)] rfl rfl

/-! ### Divider fields -/

/-- Settles O30. -/
theorem dividerFieldsSplitTheDivider : Obligations.DividerFieldsSplitTheDivider := by
  intro divider h f
  have hhigh : f.high = divider / 2 := rfl
  have hlow : f.low = divider - divider / 2 := rfl
  have hedge : f.edge = divider % 2 := rfl
  have hcount : f.noCount = if divider = 1 then 1 else 0 := rfl
  rw [hcount]
  refine ⟨hhigh, hlow, by omega, hedge, ?_, ?_, by omega, by omega, by omega⟩ <;> split <;> simp_all

/-- Settles O31. -/
theorem pllFieldsReportsTheFields : Obligations.PllFieldsReportsTheFields := by
  intro s u hl n
  have hbody : pllFieldsBody psme u =
      (require (decide (n ≠ 0)) .invalidRequest).andThen (stageResults (fieldsResults (fieldsFor psme n))) u := rfl
  refine ⟨fun h => ?_, fun h => ?_⟩
  · rw [require_of_false (decide_eq_false (not_not_intro h)), raise_andThen] at hbody
    exact exec_of_raise hl (i := .pllFields) hbody
  · rw [require_of_true (decide_eq_true h), ret_andThen] at hbody
    have hcount : (if n = 1 then 1#32 else 0#32) = BitVec.ofNat 32 (if n = 1 then 1 else 0) := by split <;> rfl
    rw [hcount]
    exact exec_of_stageResults hl (i := .pllFields) hbody

/-! ### The ten sub-writes -/

/-- What a row of `MMCM_PACK` writes (43_mmcm_encoder.md R153). -/
def PackRow.write (x : PackInput) (row : PackRow) : SubIndex × Half × Half :=
  (row.index, BitVec.ofNat 16 (row.value x), row.mask)

/-- The ten sub-writes are those of the rows (43_mmcm_encoder.md R153). -/
theorem subWrites_eq (d m dout : Nat) : subWrites d m dout = mmcmPack.map (PackRow.write (packInput psme d m dout)) := by
  have hhalf (x : Half) : BitVec.ofNat 16 x.toNat = x := BitVec.ofNat_toNat _ _ |>.trans (BitVec.setWidth_eq x)
  have hwide {n : Nat} (x : BitVec n) : BitVec.ofNat 16 x.toNat = x.setWidth 16 := BitVec.ofNat_toNat _ _
  simp only [mmcmPack, List.map_cons, List.map_nil, PackRow.write, hhalf]
  rw [hwide]
  rfl

theorem mmcmPack_masks : ∀ row ∈ psme.mmcmPack, row.mask ≠ 0xFFFF#16 := by
  simp [psme, mmcmPack]

/-- `ProgramSequence` on answers whose busy waits end (43_mmcm_encoder.md R154). -/
theorem programSequence_ok {d m dout : Nat} {ws : List SubWrite} (hn : ws.length = 10) (hw : ∀ w ∈ ws, w.Ok) {s : State}
    {rest : List Input} (hin : s.inputs = programInputsOf ws ++ rest) :
    ∃ k, programSequence psme d m dout s = .ok () (counted k (ran s (programTrace ws d m dout) rest)) := by
  obtain ⟨k, hk⟩ := writeRows_masked (packInput psme d m dout) psme.mmcmPack mmcmPack_masks ws hn hw hin
  refine ⟨k, ?_⟩
  rw [programTrace, subWrites_eq, List.zip_map_right, List.flatMap_map]
  exact hk

/-- Settles O32. -/
theorem pllProgramMakesTheTenSubWrites : Obligations.PllProgramMakesTheTenSubWrites := by
  intro s u hl d m dout
  refine ⟨fun h => ?_, fun hd hm hdout h => ?_, fun ws rest hd hd' hm hm' hdout hdout' hn hw hin => ?_⟩
  · have hbody := pllProgramBody_eq (u := u) (d := d) (m := m) (dout := dout) rfl rfl rfl
    rw [require_of_false (decide_eq_false (by omega)), raise_andThen] at hbody
    exact exec_of_raise hl (i := .pllProgram) hbody
  · have hbody := pllProgramBody_eq (u := u) (d := d) (m := m) (dout := dout) rfl rfl rfl
    rw [require_of_true (decide_eq_true ⟨hd, hm, hdout⟩), ret_andThen, require_of_false (decide_eq_false (by omega)),
      raise_andThen] at hbody
    exact exec_of_raise hl (i := .pllProgram) hbody
  · obtain ⟨k, hk⟩ := programSequence_ok hn hw hin
    exact exec_of_ok hl (i := .pllProgram) ((pllProgramBody_of_range hd hd' hm hm' hdout hdout').trans hk) []
      (List.append_nil _).symm rfl

/-- Settles O33. -/
theorem pllSetRateSolvesAndPrograms : Obligations.PllSetRateSolvesAndPrograms := by
  refine fun s u hl => ⟨fun h => ?_, fun hp ht hb => ?_, fun b ws rest hp ht hb hn hw hin => ?_⟩
  · exact exec_of_raise hl (i := .pllSetRate) ((pllSetRateBody_eq u).trans (bind_of_raise (solve_rejects h u)))
  · exact exec_of_raise hl (i := .pllSetRate) ((pllSetRateBody_eq u).trans (bind_of_raise (solve_of_none hp ht hb u)))
  · obtain ⟨k, hk⟩ := programSequence_ok (d := b.d.toNat) (m := b.m.toNat) (dout := b.dout.toNat) hn hw
      (s := { u with search := some b }) hin
    have hbody : bodyOf .pllSetRate u = _ := (pllSetRateBody_of_some hp ht hb).trans
      ((andThen_of_ok hk).trans (stageResults_eq _ _))
    exact exec_of_ok hl hbody (solveResults _ b) rfl rfl

/-! ### The read-back -/

/-- `DecodeDivider` in plain arithmetic (43_mmcm_encoder.md R162). -/
theorem decodeDivider_eq (v : Half) : decodeDivider v = v.toNat % 64 + v.toNat / 64 % 64 := by
  rw [decodeDivider, BitVec.extractLsb'_toNat, BitVec.extractLsb'_toNat, Nat.shiftRight_eq_div_pow,
    Nat.shiftRight_eq_div_pow, Nat.pow_zero, Nat.div_one]

/-- Settles O36. -/
theorem pllRecalcRateReadsTheThreeDividers : Obligations.PllRecalcRateReadsTheThreeDividers := by
  intro s u ro rd rm rest hl ho hd hm hin divider
  obtain ⟨k₁, h₁⟩ := drpRead_ok 0x08#12 ro ho (s := u) (rest := rd.inputs ++ (rm.inputs ++ rest)) (by simpa using hin)
  obtain ⟨k₂, h₂⟩ := drpRead_ok 0x16#12 rd hd (s := counted k₁ (ran u (ro.trace 0x08#12)
    (rd.inputs ++ (rm.inputs ++ rest)))) (rest := rm.inputs ++ rest) rfl
  rw [ran_counted, counted_counted, ran_ran] at h₂
  obtain ⟨k₃, h₃⟩ := drpRead_ok 0x14#12 rm hm (s := counted k₂ (ran u (ro.trace 0x08#12 ++ rd.trace 0x16#12)
    (rm.inputs ++ rest))) (rest := rest) rfl
  rw [ran_counted, counted_counted, ran_ran] at h₃
  have hbody : bodyOf .pllRecalcRate u = _ :=
    (pllRecalcRateBody_eq u).trans ((bind_of_ok h₁).trans ((bind_of_ok h₂).trans (bind_of_ok h₃)))
  have hrate : (if divider rd = 0 ∨ divider rm = 0 ∨ divider ro = 0 then 0#32
      else BitVec.ofNat 32 (min ((u.latch.get 0).toNat / divider rd * divider rm / divider ro) 0xFFFFFFFF)) =
      BitVec.ofNat 32 (recalculated (u.latch.get 0).toNat (decodeDivider rd.value) (decodeDivider rm.value)
        (decodeDivider ro.value)) := by
    rw [recalculated, decodeDivider_eq, decodeDivider_eq, decodeDivider_eq, apply_ite (BitVec.ofNat 32)]
    rfl
  rw [hrate]
  exact exec_of_ok hl hbody [(0, _)] rfl rfl

/-- A mask that covers bits 11:0 leaves what the decoder reads (43_mmcm_encoder.md R153, R162). -/
theorem decodeDivider_masked (x : Nat) {mask : Half} (hmask : mask.toNat % 2 ^ 12 = 2 ^ 12 - 1) :
    decodeDivider (BitVec.ofNat 16 x &&& mask) = x % 64 + x / 64 % 64 := by
  have hlow : (BitVec.ofNat 16 x &&& mask).toNat % 2 ^ 12 = x % 2 ^ 12 := by
    rw [BitVec.toNat_and, Nat.and_mod_two_pow, hmask, Nat.and_two_pow_sub_one_eq_mod, BitVec.toNat_ofNat]
    omega
  rw [decodeDivider_eq]
  omega

/-- The low twelve bits of a packed divider word are its two halves (43_mmcm_encoder.md R153). -/
theorem packDuty_eq {f : DividerFields} (hlow : f.low < 64) : packDuty f = f.high * 64 + f.low := by
  rw [packDuty, ← Nat.shiftLeft_add_eq_or_of_lt (i := 6) hlow, Nat.shiftLeft_eq]

theorem packDivclk_mod (f : DividerFields) : packDivclk f % 2 ^ 12 = packDuty f % 2 ^ 12 := by
  have hedge : f.edge <<< 13 % 2 ^ 12 = 0 := by rw [Nat.shiftLeft_eq]; omega
  have hcount : f.noCount <<< 12 % 2 ^ 12 = 0 := by rw [Nat.shiftLeft_eq]; omega
  rw [packDivclk, packDuty, Nat.or_mod_two_pow, Nat.or_mod_two_pow, Nat.or_mod_two_pow, hedge, hcount, Nat.or_zero,
    Nat.zero_or, ← Nat.or_mod_two_pow]

/-- The two halves of a divider of at most 126 fill six bits each, and add up to it (43_mmcm_encoder.md R152). -/
theorem packDuty_halves {divider : Nat} (h : divider ≤ 126) :
    packDuty (fieldsFor psme divider) % 64 + packDuty (fieldsFor psme divider) / 64 % 64 = divider := by
  have hlow : (fieldsFor psme divider).low = divider - divider / 2 := rfl
  have hhigh : (fieldsFor psme divider).high = divider / 2 := rfl
  have hduty : packDuty (fieldsFor psme divider) = divider / 2 * 64 + (divider - divider / 2) := by
    rw [packDuty_eq (by omega), hlow, hhigh]
  have hquot : packDuty (fieldsFor psme divider) / 64 = divider / 2 := by omega
  omega

theorem packDivclk_halves {divider : Nat} (h : divider ≤ 126) :
    packDivclk (fieldsFor psme divider) % 64 + packDivclk (fieldsFor psme divider) / 64 % 64 = divider := by
  have hmod := packDivclk_mod (fieldsFor psme divider)
  have hduty := packDuty_halves h
  omega

/-- Settles O37. -/
theorem readBackReconstructsTheTriple : Obligations.ReadBackReconstructsTheTriple := by
  intro d m dout _ hd _ hm _ hdout
  have hduty {divider : Nat} (h : divider ≤ 126) :
      decodeDivider (BitVec.ofNat 16 (packDuty (fieldsFor psme divider)) &&& 0xEFFF#16) = divider :=
    (decodeDivider_masked _ (by decide)).trans (packDuty_halves h)
  have hdivclk : decodeDivider (BitVec.ofNat 16 (packDivclk (fieldsFor psme d)) &&& 0x3FFF#16) = d :=
    (decodeDivider_masked _ (by decide)).trans (packDivclk_halves (by omega))
  exact ⟨congrArg (fun v => some (0x08#12, v)) (hduty hdout), congrArg (fun v => some (0x14#12, v)) (hduty (by omega)),
    congrArg (fun v => some (0x16#12, v)) hdivclk⟩

end Sys2Proof.Machine
end

section
/-! PROOFS. The sensor control mapper (45_sensor_control.md R200 to R211, 44_sensor_window.md R188): the gain code's
ranges, the shutters, the window report, and the four controls of SNS_SET_CTRL. -/

namespace Sys2Proof.Machine

/-! ### The window report -/

/-- Eight results replace all of RES0 to RES7. -/
theorem foldl_commitRes_eight (r : Vector Word 8) (a b c d e f g h : Word) :
    [((0 : Fin 8), a), (1, b), (2, c), (3, d), (4, e), (5, f), (6, g), (7, h)].foldl commitRes r =
      #v[a, b, c, d, e, f, g, h] := by
  ext i hi
  interval_cases i <;> simp [commitRes]

theorem snsWindowSolveBody_eq (u : State) : snsWindowSolveBody psme u =
    stageResults (windowResults (windowSolve psme (u.latch.get 0).toNat (u.latch.get 1).toNat u.rect)) u := by
  rw [snsWindowSolveBody, argU32_bind, argU32_bind, current_bind]

/-- A sequence that reports the window `w` completes OK with it in RES0 to RES7 (44_sensor_window.md R188). -/
theorem exec_of_windowResults {i : Instr} {s u : State} (w : Window) (hl : landedState s = some u)
    (hb : bodyOf i u = stageResults (windowResults w) u) :
    exec i s = .next (afterOk u #v[BitVec.ofNat 32 w.left, BitVec.ofNat 32 w.top, BitVec.ofNat 32 w.width,
      BitVec.ofNat 32 w.height, BitVec.ofNat 32 w.xskip, BitVec.ofNat 32 w.yskip, BitVec.ofNat 32 w.xbin,
      BitVec.ofNat 32 w.ybin]) := by
  rw [exec_of_stageResults hl hb, windowResults, foldl_commitRes_eight]

/-- Settles O41. -/
theorem snsWindowSolveReportsTheWindow : Obligations.SnsWindowSolveReportsTheWindow := fun _ u hl =>
  exec_of_windowResults _ hl (snsWindowSolveBody_eq u)

/-! ### The gain code -/

theorem roundDiv_mul_self (k : Nat) {b : Nat} (hb : 0 < b) : roundDiv (b * k) b = k := by
  rw [roundDiv, Nat.mul_add_div hb, Nat.div_eq_of_lt (Nat.div_lt_self hb (by decide)), Nat.add_zero]

theorem roundDiv_zero {b : Nat} (hb : 0 < b) : roundDiv 0 b = 0 := by
  rw [roundDiv, Nat.zero_add, Nat.div_eq_of_lt (Nat.div_lt_self hb (by decide))]

/-- The gain of the upper segment (45_sensor_control.md R202). -/
def upperGain (value maximum defaultValue : Int) : Nat :=
  roundDiv ((value - defaultValue - 1).toNat * 1015) (maximum - defaultValue - 1).toNat + 9

theorem gainCode_of_le {value minimum maximum defaultValue : Int} (h : value ≤ defaultValue) :
    gainCode value minimum maximum defaultValue =
      roundDiv ((value - minimum).toNat * 8) (defaultValue - minimum).toNat := by
  rw [gainCode, if_pos h]

theorem gainCode_of_gt {value minimum maximum defaultValue : Int} (h : defaultValue < value) :
    gainCode value minimum maximum defaultValue = highGainCode (upperGain value maximum defaultValue) := by
  rw [gainCode, if_neg (Int.not_le.mpr h), upperGain]

/-- On the domain the upper segment's gain runs from 9 to 1024 (45_sensor_control.md R203). -/
theorem upperGain_bounds {value minimum maximum defaultValue : Int} (h : GainDomain value minimum maximum defaultValue)
    (hseg : defaultValue < value) :
    9 ≤ upperGain value maximum defaultValue ∧ upperGain value maximum defaultValue ≤ 1024 := by
  obtain ⟨-, -, -, hmax, -, hrange⟩ := h
  have hpos := hrange hseg
  have hle := roundDiv_mul_le 1015 (a := (value - defaultValue - 1).toNat) (b := (maximum - defaultValue - 1).toNat)
    (by omega) (by omega)
  rw [upperGain]
  omega

/-- The coarse range of the gain (45_sensor_control.md R202). -/
theorem highGainCode_coarse {gain : Nat} (hlow : 65 ≤ gain) (hhigh : gain ≤ 1024) :
    highGainCode gain = (gain - 57) * 32 / 256 * 256 + 0x60 := by
  have hshift : gain - 64 + 7 = gain - 57 := by omega
  rw [highGainCode, if_neg (by omega), if_neg (by omega), coarseMasks_eq (by omega), hshift]

/-- Settles O42. -/
theorem gainCodeProperties : Obligations.GainCodeProperties := by
  refine ⟨fun v mn mx df h hseg => ⟨?_, fun heq => ?_⟩, fun v mn mx df h hseg => ?_, fun gain _ h32 => ?_,
    fun gain h33 h64 => ?_, fun gain h65 h1024 => ?_, rfl⟩
  · obtain ⟨-, -, hmin, -, hpos, -⟩ := h
    have hpos := hpos hseg
    rw [gainCode_of_le hseg]
    exact roundDiv_mul_le 8 (by omega) (by omega)
  · obtain ⟨-, -, -, -, hpos, -⟩ := h
    have hpos := hpos hseg
    rw [gainCode_of_le hseg, heq]
    exact roundDiv_mul_self 8 (by omega)
  · obtain ⟨hlow, hhigh⟩ := upperGain_bounds h hseg
    obtain ⟨-, -, -, -, -, hrange⟩ := h
    have hpos : 0 < (mx - df - 1).toNat := by have := hrange hseg; omega
    refine ⟨upperGain v mx df, hlow, hhigh, gainCode_of_gt hseg, fun heq => ?_, fun heq => ?_⟩
    · have hzero : (v - df - 1).toNat = 0 := by omega
      rw [upperGain, hzero, Nat.zero_mul, roundDiv_zero hpos]
    · rw [upperGain, heq, roundDiv_mul_self 1015 hpos]
  · rw [highGainCode, if_pos h32]
  · rw [highGainCode, if_neg (by omega), if_pos h64, roundDiv]
    omega
  · rw [highGainCode_coarse h65 h1024]
    omega

/-- On the domain the code fits its register (45_sensor_control.md R201, R203). -/
theorem gainCode_lt {value minimum maximum defaultValue : Int} (h : GainDomain value minimum maximum defaultValue) :
    gainCode value minimum maximum defaultValue < 2 ^ 16 := by
  obtain ⟨hlower, -, hfine, hmiddle, hcoarse, -⟩ := gainCodeProperties
  obtain hseg | hseg := Int.lt_or_le defaultValue value
  · obtain ⟨hlow, hhigh⟩ := upperGain_bounds h hseg
    rw [gainCode_of_gt hseg]
    obtain h32 | h32 := Nat.lt_or_ge 32 (upperGain value maximum defaultValue)
    · obtain h64 | h64 := Nat.lt_or_ge 64 (upperGain value maximum defaultValue)
      · obtain ⟨-, -, hle⟩ := hcoarse _ h64 hhigh
        omega
      · obtain ⟨-, hle⟩ := hmiddle _ h32 h64
        omega
    · rw [hfine _ hlow h32]
      omega
  · obtain ⟨hle, -⟩ := hlower _ _ _ _ h hseg
    omega

/-! ### The shutters -/

/-- The manual-exposure checks are the manual domain (45_sensor_control.md R200). -/
theorem manualOk_iff (value minimum maximum : Int) :
    manualOk value minimum maximum = true ↔ ManualDomain value minimum maximum := by
  rw [manualOk, ManualDomain, decide_eq_true_iff]
  omega

/-- On the manual domain the manual shutter is the integer one (45_sensor_control.md R204). -/
theorem natCast_manualShutter {value minimum maximum : Int} (h : ManualDomain value minimum maximum) :
    (manualShutter value minimum maximum : Int) = manualShutterInt value minimum maximum := by
  obtain ⟨hmin, hmax, hlt⟩ := h
  rw [manualShutter, manualShutterInt, Nat.cast_add, natCast_roundDiv_mul 1048 (by omega) (by omega)]
  rfl

theorem ofNat_manualShutter {value minimum maximum : Int} (h : ManualDomain value minimum maximum) :
    BitVec.ofNat 32 (manualShutter value minimum maximum) =
      BitVec.ofInt 32 (manualShutterInt value minimum maximum) := by
  rw [← natCast_manualShutter h, BitVec.ofInt_natCast]

/-- The automatic shutter is the sum of the words (45_sensor_control.md R212). -/
theorem ofNat_autoShutter (s : State) :
    BitVec.ofNat 32 (autoShutter psme s s.rect.height.toNat) =
      s.rect.height.setWidth 32 + s.ySkipTop.setWidth 32 + 25#32 := by
  have h : autoShutter psme s s.rect.height.toNat = s.rect.height.toNat + s.ySkipTop.toNat + 25 := rfl
  rw [h, BitVec.ofNat_add, BitVec.ofNat_add, BitVec.ofNat_toNat, BitVec.ofNat_toNat]

theorem shutterCode_auto (value minimum maximum : Int) (s : State) :
    shutterCode psme true value minimum maximum s = .ok (autoShutter psme s s.rect.height.toNat) s := rfl

theorem shutterCode_manual {value minimum maximum : Int} (h : ManualDomain value minimum maximum) (s : State) :
    shutterCode psme false value minimum maximum s = .ok (manualShutter value minimum maximum) s := by
  rw [shutterCode, if_neg Bool.false_ne_true, require_of_true ((manualOk_iff _ _ _).mpr h), ret_andThen]
  rfl

theorem shutterCode_rejects {value minimum maximum : Int} (h : ¬ ManualDomain value minimum maximum) (s : State) :
    shutterCode psme false value minimum maximum s = .raise .invalidRequest s := by
  have hbad : manualOk value minimum maximum = false :=
    Bool.eq_false_iff.mpr fun hok => h ((manualOk_iff _ _ _).mp hok)
  rw [shutterCode, if_neg Bool.false_ne_true, require_of_false hbad, raise_andThen]
  rfl

/-! ### A bool operand -/

theorem argBool_of_eq_zero {i : Fin 8} {s : State} (h : s.latch.get i = 0#32) : argBool i s = .ok false s := by
  rw [argBool_of_le (by rw [h]; decide), h]
  rfl

theorem argBool_of_eq_one {i : Fin 8} {s : State} (h : s.latch.get i = 1#32) : argBool i s = .ok true s := by
  rw [argBool_of_le (by rw [h]; decide), h]
  rfl

/-! ### SNS_SHUTTER_CODE -/

theorem snsShutterCodeBody_of_ok {u : State} {automatic : Bool} (h : argBool 0 u = .ok automatic u) :
    snsShutterCodeBody psme u = (shutterCode psme automatic (u.latch.get 1).toInt (u.latch.get 2).toInt
      (u.latch.get 3).toInt).bind (fun t => stageRes 0 (BitVec.ofNat 32 t)) u := by
  rw [snsShutterCodeBody, bind_of_ok h, argS32_bind, argS32_bind, argS32_bind]

theorem exec_snsShutterCode {s u : State} {automatic : Bool} {t : Nat} (hl : landedState s = some u)
    (hb : argBool 0 u = .ok automatic u) (hc : shutterCode psme automatic (u.latch.get 1).toInt (u.latch.get 2).toInt
      (u.latch.get 3).toInt u = .ok t u) :
    exec .snsShutterCode s = .next (afterOk u (u.res.set 0 (BitVec.ofNat 32 t))) :=
  exec_of_ok hl (i := .snsShutterCode) ((snsShutterCodeBody_of_ok hb).trans (bind_of_ok hc))
    [(0, BitVec.ofNat 32 t)] rfl rfl

/-- Settles O44. -/
theorem snsShutterCodeReportsTheShutter : Obligations.SnsShutterCodeReportsTheShutter := by
  intro s u hl v mn mx
  refine ⟨fun h => ?_, fun h hm => ?_, fun h hm => ?_, fun h => ?_⟩
  · exact exec_of_raise hl (i := .snsShutterCode) (bind_of_raise (argBool_of_gt h))
  · rw [exec_snsShutterCode hl (argBool_of_eq_zero h) (shutterCode_manual hm u), ofNat_manualShutter hm]
  · exact exec_of_raise hl (i := .snsShutterCode)
      ((snsShutterCodeBody_of_ok (argBool_of_eq_zero h)).trans (bind_of_raise (shutterCode_rejects hm u)))
  · rw [exec_snsShutterCode hl (argBool_of_eq_one h) (shutterCode_auto _ _ _ u), ofNat_autoShutter]

/-! ### SNS_GET_FORMAT -/

/-- A word is 0 exactly when its value is. -/
theorem toNat_eq_zero_iff (w : Word) : w.toNat = 0 ↔ w = 0#32 := BitVec.toNat_inj (y := 0#32)

theorem snsGetFormatBody_rejects {u : State} (h : u.latch.get 0 ≠ 0#32) :
    snsGetFormatBody psme u = .raise .invalidRequest u := by
  rw [snsGetFormatBody, argU32_bind, require_of_false (decide_eq_false (mt (toNat_eq_zero_iff _).mp h)),
    raise_andThen]
  rfl

theorem snsGetFormatBody_of_noPad {u : State} (h : u.latch.get 0 = 0#32) :
    snsGetFormatBody psme u =
      stageResults (formatResults psme u.rect.width.toNat u.rect.height.toNat u.xskip.toNat u.yskip.toNat) u := by
  rw [snsGetFormatBody, argU32_bind, require_of_true (decide_eq_true ((toNat_eq_zero_iff _).mpr h)), ret_andThen,
    current_bind]

/-- Settles O49. -/
theorem snsGetFormatReportsTheEffectiveSize : Obligations.SnsGetFormatReportsTheEffectiveSize := fun _ _ hl =>
  ⟨fun h => exec_of_raise hl (i := .snsGetFormat) (snsGetFormatBody_rejects h),
   fun h => exec_of_stageResults hl (i := .snsGetFormat) (snsGetFormatBody_of_noPad h)⟩

/-! ### Completing with persistent writes -/

/-- A completion and a staged write that becomes visible do not meet. -/
theorem foldl_commitState_finish (code : ErrCode) (info : Word) (ws : List StateWrite) (s : State) :
    finish code info (ws.foldl commitState s) = ws.foldl commitState (finish code info s) := by
  induction ws generalizing s with
  | nil => rfl
  | cons w ws ih =>
    have hw : finish code info (commitState s w) = commitState (finish code info s) w := by cases w <;> rfl
    rw [List.foldl_cons, ih, hw, List.foldl_cons]

/-- A sequence that staged the results `ws` and the persistent writes `vs` completes OK with them (60_exceptions.md
R246). -/
theorem exec_of_committed {i : Instr} {s u t : State} (hl : landedState s = some u) (hb : bodyOf i u = .ok () t)
    (ws : List (Fin 8 × Word)) (vs : List StateWrite) (hr : t.stagedRes = u.stagedRes ++ ws)
    (hs : t.stagedState = u.stagedState ++ vs) :
    exec i s = .next (vs.foldl commitState (afterOk t (ws.foldl commitRes t.res))) := by
  obtain ⟨hres, hstate⟩ := nothingStaged_of_landed hl
  rw [hres, List.nil_append] at hr
  rw [hstate, List.nil_append] at hs
  rw [exec_eq, runCommand_ok hl hb, completeOk, foldl_commitState_finish, hr, hs]
  rfl

/-! ### SNS_SET_CTRL's controls -/

theorem snsSetCtrlBody_gain {u : State} (h : (u.latch.get 0).toNat = 1) : snsSetCtrlBody psme u = setGain psme u := by
  rw [snsSetCtrlBody, argU32_bind, h]
  rfl

theorem snsSetCtrlBody_exposure {u : State} (h : (u.latch.get 0).toNat = 2) :
    snsSetCtrlBody psme u = setExposure psme u := by
  rw [snsSetCtrlBody, argU32_bind, h]
  rfl

theorem snsSetCtrlBody_hFlip {u : State} (h : (u.latch.get 0).toNat = 3) :
    snsSetCtrlBody psme u = setFlip psme 0x4000#16 u := by
  rw [snsSetCtrlBody, argU32_bind, h]
  rfl

theorem snsSetCtrlBody_vFlip {u : State} (h : (u.latch.get 0).toNat = 4) :
    snsSetCtrlBody psme u = setFlip psme 0x8000#16 u := by
  rw [snsSetCtrlBody, argU32_bind, h]
  rfl

/-- An unknown control is rejected (45_sensor_control.md R208). -/
theorem snsSetCtrlBody_unknown {u : State} (h : (u.latch.get 0).toNat = 0 ∨ 4 < (u.latch.get 0).toNat) :
    snsSetCtrlBody psme u = .raise .invalidRequest u := by
  rw [snsSetCtrlBody, argU32_bind]
  generalize (u.latch.get 0).toNat = control at h
  match control, h with
  | 0, _ => rfl
  | 1, h => omega
  | 2, h => omega
  | 3, h => omega
  | 4, h => omega
  | _ + 5, _ => rfl

/-- A sensor write that fails (20_memory.md R54). -/
theorem snsWrites_cons_ioError {a : Half} {v : Nat} {ws : List (Half × Nat)} {s : State} {rest : List Input}
    (h : s.inputs = .answer .ioError :: rest) :
    snsWrites ((a, v) :: ws) s = .raise (.ioError .sns (a.setWidth 32))
      (ran s [⟨.sns, a.setWidth 32, .write ((BitVec.ofNat 16 v).setWidth 32), .ioError⟩] rest) :=
  andThen_of_raise (memWrite_ioError h)

/-- Values that fit pass the check (45_sensor_control.md R201). -/
theorem checkHalves_of_fit {ws : List (Half × Nat)} (h : ∀ w ∈ ws, w.2 < 2 ^ 16) : checkHalves ws = Cmd.ret () :=
  require_of_true (List.all_eq_true.mpr fun w hw => decide_eq_true (h w hw))

/-! ### GAIN -/

theorem setGain_eq (u : State) :
    setGain psme u =
      (require (gainOk (u.latch.get 1).toInt (u.latch.get 2).toInt (u.latch.get 3).toInt (u.latch.get 4).toInt)
        .invalidRequest).andThen
      ((checkHalves (gainWrites psme (gainCode (u.latch.get 1).toInt (u.latch.get 2).toInt (u.latch.get 3).toInt
        (u.latch.get 4).toInt))).andThen
      ((snsWrites (gainWrites psme (gainCode (u.latch.get 1).toInt (u.latch.get 2).toInt (u.latch.get 3).toInt
        (u.latch.get 4).toInt))).andThen
      (stageRes 0 (BitVec.ofNat 32 (gainCode (u.latch.get 1).toInt (u.latch.get 2).toInt (u.latch.get 3).toInt
        (u.latch.get 4).toInt))))) u := by
  rw [setGain, argS32_bind, argS32_bind, argS32_bind, argS32_bind]

/-- On the domain the code is written, then reported (45_sensor_control.md R209). -/
theorem setGain_of_domain {u : State} {v mn mx df : Int} (hv : (u.latch.get 1).toInt = v)
    (hmn : (u.latch.get 2).toInt = mn) (hmx : (u.latch.get 3).toInt = mx) (hdf : (u.latch.get 4).toInt = df)
    (h : GainDomain v mn mx df) :
    setGain psme u = (snsWrites [(0x35#16, gainCode v mn mx df)]).andThen
      (stageRes 0 (BitVec.ofNat 32 (gainCode v mn mx df))) u := by
  have hfit : ∀ w ∈ gainWrites psme (gainCode v mn mx df), w.2 < 2 ^ 16 := List.forall_mem_singleton.mpr (gainCode_lt h)
  rw [setGain_eq, hv, hmn, hmx, hdf, require_of_true ((gainOk_iff _ _ _ _).mpr h), ret_andThen,
    checkHalves_of_fit hfit, ret_andThen]
  rfl

theorem setGain_rejects {u : State}
    (h : ¬ GainDomain (u.latch.get 1).toInt (u.latch.get 2).toInt (u.latch.get 3).toInt (u.latch.get 4).toInt) :
    setGain psme u = .raise .invalidRequest u := by
  rw [setGain_eq, require_of_false (Bool.eq_false_iff.mpr fun hok => h ((gainOk_iff _ _ _ _).mp hok)), raise_andThen]
  rfl

/-- Settles O45. -/
theorem setCtrlGainWritesTheCode : Obligations.SetCtrlGainWritesTheCode := by
  intro s u rest hl h0 v mn mx df code
  have hcontrol := snsSetCtrlBody_gain (u := u) (by rw [h0]; rfl)
  have hcode (n : Nat) (h : GainDomain v mn mx df) : BitVec.ofNat n (gainCode v mn mx df) = BitVec.ofInt n code := by
    rw [show code = _ from (natCast_gainCode h).symm, BitVec.ofInt_natCast]
  refine ⟨fun h => ?_, fun ack h hin => ?_, fun h hin => ?_⟩
  · exact exec_of_raise hl (i := .snsSetCtrl) (hcontrol.trans (setGain_rejects h))
  · have hwrite := snsWrites_value [(0x35#16, gainCode v mn mx df)] [ack] rfl hin
    have hbody := hcontrol.trans ((setGain_of_domain rfl rfl rfl rfl h).trans (andThen_of_ok hwrite))
    rw [List.map_singleton, hcode 16 h, hcode 32 h] at hbody
    exact exec_of_ok hl (i := .snsSetCtrl) hbody [(0, BitVec.ofInt 32 code)] rfl rfl
  · have hwrite := snsWrites_cons_ioError (a := 0x35#16) (v := gainCode v mn mx df) (ws := []) hin
    have hbody := hcontrol.trans ((setGain_of_domain rfl rfl rfl rfl h).trans (andThen_of_raise hwrite))
    rw [hcode 16 h] at hbody
    exact exec_of_raise hl (i := .snsSetCtrl) hbody

/-! ### EXPOSURE -/

/-- What follows the shutter's value in an exposure control (45_sensor_control.md R205, R210). -/
def commitExposure (automatic : Bool) (t : Nat) : Cmd Unit :=
  (checkHalves (shutterWrites psme t)).andThen
  ((snsWrites (shutterWrites psme t)).andThen
  ((stageState (.aeMode automatic)).andThen
  ((if automatic then stageState (.totalLineTime (BitVec.ofNat 32 t)) else Cmd.ret ()).andThen
  (stageRes 0 (BitVec.ofNat 32 t)))))

theorem setExposure_of_ok {u : State} {automatic : Bool} (h : argBool 1 u = .ok automatic u) :
    setExposure psme u = (shutterCode psme automatic (u.latch.get 2).toInt (u.latch.get 3).toInt
      (u.latch.get 4).toInt).bind (commitExposure automatic) u := by
  rw [setExposure, bind_of_ok h, argS32_bind, argS32_bind, argS32_bind]
  rfl

/-- The halves of a shutter fit their registers (45_sensor_control.md R205). -/
theorem shutterWrites_fit (t : Nat) : ∀ w ∈ shutterWrites psme t, w.2 < 2 ^ 16 :=
  List.forall_mem_cons.mpr ⟨BitVec.isLt _, List.forall_mem_singleton.mpr (BitVec.isLt _)⟩

/-- The persistent writes of an exposure control (45_sensor_control.md R210). -/
def exposureWrites (automatic : Bool) (t : Nat) : List StateWrite :=
  if automatic then [.aeMode true, .totalLineTime (BitVec.ofNat 32 t)] else [.aeMode false]

/-- Both halves written, the mode and in automatic mode the line time staged (45_sensor_control.md R210). -/
theorem commitExposure_ok (automatic : Bool) (t : Nat) {u : State} {a b : Word} {rest : List Input}
    (hin : u.inputs = .answer (.value a) :: .answer (.value b) :: rest) :
    commitExposure automatic t u = .ok () { ran u (shutterTrace (BitVec.ofNat 32 t)) rest with
      stagedState := u.stagedState ++ exposureWrites automatic t,
      stagedRes := u.stagedRes ++ [(0, BitVec.ofNat 32 t)] } := by
  have hwrites := snsWrites_value (shutterWrites psme t) [a, b] rfl hin
  rw [shutterWrites_trace] at hwrites
  rw [commitExposure, checkHalves_of_fit (shutterWrites_fit t), ret_andThen, andThen_of_ok hwrites,
    andThen_of_ok (stageState_eq _ _)]
  cases automatic with
  | false => rfl
  | true =>
    rw [if_pos rfl, andThen_of_ok (stageState_eq _ _), stageRes_eq]
    simp only [List.append_assoc]
    rfl

/-- A lower half that fails ends the control with nothing staged (45_sensor_control.md R205, R210). -/
theorem commitExposure_lower_fails (automatic : Bool) (t : Nat) {u : State} {a : Word} {rest : List Input}
    (hin : u.inputs = .answer (.value a) :: .answer .ioError :: rest) :
    commitExposure automatic t u = .raise (.ioError .sns 0x09#32) (ran u
      [snsWriteOf 0x08#32 ((BitVec.ofNat 32 t).extractLsb' 16 16),
       ⟨.sns, 0x09#32, .write (((BitVec.ofNat 32 t).extractLsb' 0 16).setWidth 32), .ioError⟩] rest) := by
  have hhalf (x : Half) : BitVec.ofNat 16 x.toNat = x := BitVec.ofNat_toNat _ _ |>.trans (BitVec.setWidth_eq x)
  have hupper := snsWrite_value (a := 0x08#16) (v := BitVec.ofNat 16 ((BitVec.ofNat 32 t).extractLsb' 16 16).toNat) hin
  have hlower := snsWrites_cons_ioError (a := 0x09#16) (v := ((BitVec.ofNat 32 t).extractLsb' 0 16).toNat) (ws := [])
    (ran_inputs u [snsWriteOf 0x08#32 (BitVec.ofNat 16 ((BitVec.ofNat 32 t).extractLsb' 16 16).toNat)]
      (.answer .ioError :: rest))
  rw [ran_ran, hhalf, hhalf] at hlower
  rw [hhalf] at hupper
  have hsplit : snsWrites (shutterWrites psme t) = (snsWrite 0x08#16 (BitVec.ofNat 16
      ((BitVec.ofNat 32 t).extractLsb' 16 16).toNat)).andThen
      (snsWrites [(0x09#16, ((BitVec.ofNat 32 t).extractLsb' 0 16).toNat)]) := rfl
  rw [hhalf] at hsplit
  rw [commitExposure, checkHalves_of_fit (shutterWrites_fit t), ret_andThen, hsplit,
    andThen_of_raise ((andThen_of_ok hupper).trans hlower)]
  rfl

/-- Settles O46. -/
theorem setCtrlExposureWritesTheShutter : Obligations.SetCtrlExposureWritesTheShutter := by
  intro s u rest hl h0 v mn mx manual auto
  have hcontrol := snsSetCtrlBody_exposure (u := u) (by rw [h0]; rfl)
  refine ⟨fun h1 hm => ?_, fun h1 a b hin => ?_⟩
  · have hcode := (setExposure_of_ok (argBool_of_eq_zero h1)).trans (bind_of_ok (shutterCode_manual hm u))
    have hvalue : BitVec.ofNat 32 (manualShutter v mn mx) = manual := ofNat_manualShutter hm
    refine ⟨fun a b hin => ?_, fun a hin => ?_⟩
    · have hbody := hcontrol.trans (hcode.trans (commitExposure_ok false _ hin))
      rw [hvalue] at hbody
      exact exec_of_committed hl (i := .snsSetCtrl) hbody [(0, manual)] [.aeMode false] rfl rfl
    · have hbody := hcontrol.trans (hcode.trans (commitExposure_lower_fails false _ hin))
      rw [hvalue] at hbody
      exact exec_of_raise hl (i := .snsSetCtrl) hbody
  · have hcode := (setExposure_of_ok (argBool_of_eq_one h1)).trans (bind_of_ok (shutterCode_auto v mn mx u))
    have hbody := hcontrol.trans (hcode.trans (commitExposure_ok true _ hin))
    rw [exposureWrites, if_pos rfl, ofNat_autoShutter] at hbody
    exact exec_of_committed hl (i := .snsSetCtrl) hbody [(0, auto)] [.aeMode true, .totalLineTime auto] rfl rfl

/-! ### HFLIP and VFLIP -/

/-- The value an update writes: bit `b`, the mask's only one, is the operand, the others are the old ones (20_memory.md
R55). -/
theorem getLsbD_update {old mask : Half} {b k : Nat} (hk : k < 16) (hmask : mask.getLsbD k = decide (k = b)) (set : Bool) :
    (if set then old ||| mask else old &&& ~~~mask).getLsbD k = if k = b then set else old.getLsbD k := by
  cases set
  · rw [if_neg Bool.false_ne_true, BitVec.getLsbD_and, BitVec.getLsbD_not, hmask, decide_eq_true hk]
    split <;> simp_all
  · rw [if_pos rfl, BitVec.getLsbD_or, hmask]
    split <;> simp_all

/-- A flip control reads the register and writes it back with its bit set to the operand (45_sensor_control.md R211). -/
theorem setFlip_ok {mask : Half} {b : Nat} (hmask : ∀ k < 16, mask.getLsbD k = decide (k = b)) {u : State}
    {old ack : Word} {rest : List Input} (h1 : (u.latch.get 1).toNat ≤ 1)
    (hin : u.inputs = .answer (.value old) :: .answer (.value ack) :: rest) :
    ∃ new : Half, setFlip psme mask u = .ok ()
        (ran u [snsReadOf 0x20#32 (old.extractLsb' 0 16), snsWriteOf 0x20#32 new] rest) ∧
      ∀ k < 16, new.getLsbD k = if k = b then decide (u.latch.get 1 = 1#32) else old.getLsbD k := by
  refine ⟨_, (bind_of_ok (argBool_of_le h1)).trans (snsUpdate_value hin), fun k hk => ?_⟩
  have hold : (old.extractLsb' 0 16).getLsbD k = old.getLsbD k := by
    rw [BitVec.getLsbD_extractLsb', decide_eq_true hk, Bool.true_and, Nat.zero_add]
  rw [getLsbD_update hk (hmask k hk), hold]
  rfl

/-- Settles O47. -/
theorem setCtrlFlipUpdatesOneBit : Obligations.SetCtrlFlipUpdatesOneBit := by
  intro s u old ack rest hl h0 h1 hin
  obtain h0 | h0 := h0
  · obtain ⟨new, hok, hbits⟩ := setFlip_ok (mask := 0x4000#16) (b := 14) (by decide) h1 hin
    refine ⟨new, exec_of_ok hl (i := .snsSetCtrl) ((snsSetCtrlBody_hFlip (by rw [h0]; rfl)).trans hok) []
      (List.append_nil _).symm rfl, ?_⟩
    rw [if_pos h0]
    exact hbits
  · obtain ⟨new, hok, hbits⟩ := setFlip_ok (mask := 0x8000#16) (b := 15) (by decide) h1 hin
    refine ⟨new, exec_of_ok hl (i := .snsSetCtrl) ((snsSetCtrlBody_vFlip (by rw [h0]; rfl)).trans hok) []
      (List.append_nil _).symm rfl, ?_⟩
    rw [if_neg (by rw [h0]; decide)]
    exact hbits

/-! ### Rejections -/

/-- A bool operand above 1 is rejected by each control that has one (45_sensor_control.md R210, R211). -/
theorem snsSetCtrlBody_bool_rejects {u : State} (h2 : 2 ≤ (u.latch.get 0).toNat) (h4 : (u.latch.get 0).toNat ≤ 4)
    (h1 : 1 < (u.latch.get 1).toNat) : snsSetCtrlBody psme u = .raise .invalidRequest u := by
  have hbool := argBool_of_gt h1
  obtain h | h | h : (u.latch.get 0).toNat = 2 ∨ (u.latch.get 0).toNat = 3 ∨ (u.latch.get 0).toNat = 4 := by omega
  · exact (snsSetCtrlBody_exposure h).trans (bind_of_raise hbool)
  · exact (snsSetCtrlBody_hFlip h).trans (bind_of_raise hbool)
  · exact (snsSetCtrlBody_vFlip h).trans (bind_of_raise hbool)

/-- Settles O48. -/
theorem setCtrlRejectsBadOperands : Obligations.SetCtrlRejectsBadOperands := by
  intro s u hl c a h
  refine exec_of_raise hl (i := .snsSetCtrl) (e := .invalidRequest) ?_
  obtain h | ⟨h0, h⟩ | ⟨h2, h4, h1⟩ | ⟨h0, h1, h⟩ := h
  · exact snsSetCtrlBody_unknown h
  · exact (snsSetCtrlBody_gain h0).trans (setGain_rejects h)
  · exact snsSetCtrlBody_bool_rejects h2 h4 h1
  · exact (snsSetCtrlBody_exposure h0).trans
      ((setExposure_of_ok (argBool_of_eq_zero h1)).trans (bind_of_raise (shutterCode_rejects h u)))

end Sys2Proof.Machine
end

section
/-! PROOFS. SNS_SET_FORMAT (45_sensor_control.md R213, R216, R217): which windows fit the registers, the commit on given
answers, and what every successful commit made and staged. -/

namespace Sys2Proof.Machine

/-! ### Windows in range -/

/-- The ranges of a solved window that its registers and the record rely on (44_sensor_window.md R182 to R187). -/
structure Window.InRange (w : Window) : Prop where
  left : w.left < 2 ^ 16
  top : w.top < 2 ^ 16
  width : w.width ≤ 2048
  height : w.height ≤ 1536
  xskip : w.xskip ≤ 8
  yskip : w.yskip ≤ 8
  xbin : w.xbin ≤ 3
  ybin : w.ybin ≤ 3

theorem windowSolve_inRange (reqW reqH : Nat) (r : Rect) : (windowSolve psme reqW reqH r).InRange := by
  have hc := configurationMeetsItsLaws
  obtain ⟨-, hx, -, hwidth⟩ := windowSolve_width_bounds hc reqW reqH r
  obtain ⟨-, hy, -, hheight⟩ := windowSolve_height_bounds hc reqW reqH r
  obtain ⟨-, hleft⟩ := alignLeft_even_lt hc.columnSkipFits r.left (windowSolve psme reqW reqH r).xbin
  exact { left := hleft, top := BitVec.isLt _, width := hwidth, height := hheight, xskip := hx, yskip := hy,
          xbin := Nat.min_le_right _ _, ybin := Nat.min_le_right _ _ }

/-! ### The writes of a commit -/

theorem autoShutter_eq (u : State) (height : Nat) : autoShutter psme u height = height + u.ySkipTop.toNat + 25 := rfl

/-- The packing of an address-mode word: binning above skip, each less one (10_state.md R40). -/
theorem addrMode_eq {bin skip : Nat} (hskip : skip ≤ 8) :
    (bin - 1) <<< 4 ||| (skip - 1) = 16 * (bin - 1) + (skip - 1) := by
  rw [← Nat.shiftLeft_add_eq_or_of_lt (by omega), Nat.shiftLeft_eq, Nat.mul_comm]

/-- The transactions between the output hold and its release (45_sensor_control.md R216). -/
def formatTrace (u : State) (w : Window) : List Transaction :=
  [snsWriteOf 0x05#32 142#16, snsWriteOf 0x06#32 25#16] ++
  (if w.xskip ≠ u.xskip.toNat ∨ w.yskip ≠ u.yskip.toNat then
    [snsWriteOf 0x23#32 (BitVec.ofNat 16 (16 * (w.xbin - 1) + (w.xskip - 1))),
     snsWriteOf 0x22#32 (BitVec.ofNat 16 (16 * (w.ybin - 1) + (w.yskip - 1)))] else []) ++
  [snsWriteOf 0x02#32 (BitVec.ofNat 16 w.left), snsWriteOf 0x01#32 (BitVec.ofNat 16 w.top),
   snsWriteOf 0x04#32 (BitVec.ofNat 16 (w.width - 1)),
   snsWriteOf 0x03#32 (BitVec.ofNat 16 (w.height + u.ySkipTop.toNat - 1))] ++
  (if u.aeMode then shutterTrace (BitVec.ofNat 32 (w.height + u.ySkipTop.toNat + 25)) else [])

/-- The transaction of a sensor write that succeeds. -/
def writeTransaction (w : Half × Nat) : Transaction := snsWriteOf (w.1.setWidth 32) (BitVec.ofNat 16 w.2)

theorem addrModeWrites_trace {w : Window} (hw : w.InRange) (u : State) :
    (addrModeWrites psme u w).map writeTransaction =
      if w.xskip ≠ u.xskip.toNat ∨ w.yskip ≠ u.yskip.toNat then
        [snsWriteOf 0x23#32 (BitVec.ofNat 16 (16 * (w.xbin - 1) + (w.xskip - 1))),
         snsWriteOf 0x22#32 (BitVec.ofNat 16 (16 * (w.ybin - 1) + (w.yskip - 1)))] else [] := by
  rw [addrModeWrites, addrMode_eq hw.xskip, addrMode_eq hw.yskip]
  split <;> rfl

theorem shutterWrites_of_mode_trace (automatic : Bool) (t : Nat) :
    (if automatic then shutterWrites psme t else []).map writeTransaction =
      if automatic then shutterTrace (BitVec.ofNat 32 t) else [] := by
  cases automatic with
  | false => rfl
  | true => exact shutterWrites_trace t

theorem formatWrites_trace {w : Window} (hw : w.InRange) (u : State) :
    (formatWrites psme u w).map writeTransaction = formatTrace u w := by
  rw [formatWrites, List.map_append, List.map_append, List.map_append, addrModeWrites_trace hw,
    shutterWrites_of_mode_trace]
  rfl

theorem formatWrites_length (u : State) (w : Window) : (formatWrites psme u w).length =
    6 + (if w.xskip ≠ u.xskip.toNat ∨ w.yskip ≠ u.yskip.toNat then 2 else 0) + (if u.aeMode then 2 else 0) := by
  have haddr : (addrModeWrites psme u w).length =
      if w.xskip ≠ u.xskip.toNat ∨ w.yskip ≠ u.yskip.toNat then 2 else 0 := by
    rw [addrModeWrites]
    split <;> rfl
  have hshutter : (if u.aeMode then shutterWrites psme (autoShutter psme u w.height) else []).length =
      if u.aeMode then 2 else 0 := by
    split <;> rfl
  rw [formatWrites, List.length_append, List.length_append, List.length_append, haddr, hshutter]
  simp only [List.length_cons, List.length_nil]
  omega

/-- The window height is the only value of a commit that may not fit its register (45_sensor_control.md R201). -/
theorem formatWrites_fit {u : State} {w : Window} (hw : w.InRange) (h : w.height + u.ySkipTop.toNat ≤ 65536) :
    ∀ x ∈ formatWrites psme u w, x.2 < 2 ^ 16 := by
  have haddr : ∀ x ∈ addrModeWrites psme u w, x.2 < 2 ^ 16 := by
    rw [addrModeWrites, addrMode_eq hw.xskip, addrMode_eq hw.yskip]
    have := hw.xskip
    have := hw.yskip
    have := hw.xbin
    have := hw.ybin
    split
    · exact List.forall_mem_cons.mpr ⟨by dsimp only; omega, List.forall_mem_singleton.mpr (by dsimp only; omega)⟩
    · exact nofun
  have hshutter : ∀ x ∈ (if u.aeMode then shutterWrites psme (autoShutter psme u w.height) else []), x.2 < 2 ^ 16 := by
    split
    · exact shutterWrites_fit _
    · exact nofun
  have hwidth : w.width - 1 < 2 ^ 16 := by have := hw.width; omega
  have hheight : w.height + u.ySkipTop.toNat - 1 < 2 ^ 16 := by omega
  have hblank : ∀ x ∈ [(psme.snsReg.hBlank, psme.hBlank), (psme.snsReg.vBlank, psme.vBlank)], x.2 < 2 ^ 16 := by decide
  have hwindow : ∀ x ∈ [(psme.snsReg.colStart, w.left), (psme.snsReg.rowStart, w.top),
      (psme.snsReg.winWidth, psme.winWidthReg w.width),
      (psme.snsReg.winHeight, psme.winHeightReg w.height u.ySkipTop.toNat)], x.2 < 2 ^ 16 :=
    List.forall_mem_cons.mpr ⟨hw.left, List.forall_mem_cons.mpr ⟨hw.top,
      List.forall_mem_cons.mpr ⟨hwidth, List.forall_mem_singleton.mpr hheight⟩⟩⟩
  rw [formatWrites]
  exact List.forall_mem_append.mpr ⟨List.forall_mem_append.mpr ⟨List.forall_mem_append.mpr ⟨hblank, haddr⟩, hwindow⟩,
    hshutter⟩

theorem winHeight_mem_formatWrites (u : State) (w : Window) :
    (psme.snsReg.winHeight, psme.winHeightReg w.height u.ySkipTop.toNat) ∈ formatWrites psme u w :=
  List.mem_append_left _ (List.mem_append_right _ (by simp only [List.mem_cons, true_or, or_true]))

/-- A window height that does not fit fails the check of the commit (45_sensor_control.md R201). -/
theorem checkHalves_of_tall {u : State} {w : Window} (h : 65536 < w.height + u.ySkipTop.toNat) :
    checkHalves (formatWrites psme u w) = raise .invalidRequest := by
  refine require_of_false (Bool.eq_false_iff.mpr fun hall => ?_)
  have hfit := List.all_eq_true.mp hall _ (winHeight_mem_formatWrites u w)
  have hheight : w.height + u.ySkipTop.toNat - 1 < 2 ^ 16 := of_decide_eq_true hfit
  omega

/-! ### The record of a commit -/

/-- The persistent writes of a format commit (45_sensor_control.md R216). -/
def formatStaged (u : State) (w : Window) : List StateWrite :=
  (if u.aeMode then [.totalLineTime (BitVec.ofNat 32 (w.height + u.ySkipTop.toNat + 25))] else []) ++
  [.rect w.rect, .xskip (BitVec.ofNat 4 w.xskip), .yskip (BitVec.ofNat 4 w.yskip)]

/-- A commit stages its persistent writes, then the results (45_sensor_control.md R216). -/
theorem stageFormat_results_eq (u : State) (w : Window) (s : State) :
    (stageFormat psme u w).andThen (stageResults (formatResults psme w.width w.height w.xskip w.yskip)) s =
      .ok () { s with stagedState := s.stagedState ++ formatStaged u w,
                      stagedRes := s.stagedRes ++ formatResults psme w.width w.height w.xskip w.yskip } := by
  have hstate : stageFormat psme u w s = .ok () { s with stagedState := s.stagedState ++ formatStaged u w } := by
    rw [stageFormat, formatStaged]
    cases u.aeMode with
    | false =>
      rw [if_neg Bool.false_ne_true, if_neg Bool.false_ne_true, ret_andThen, andThen_of_ok (stageState_eq _ _),
        andThen_of_ok (stageState_eq _ _), stageState_eq]
      simp only [List.append_assoc, List.cons_append, List.nil_append]
    | true =>
      rw [if_pos rfl, if_pos rfl, andThen_of_ok (stageState_eq _ _), andThen_of_ok (stageState_eq _ _),
        andThen_of_ok (stageState_eq _ _), stageState_eq]
      simp only [List.append_assoc, List.cons_append, List.nil_append]
      rfl
  rw [andThen_of_ok hstate, stageResults_eq]

/-- What the staged writes of a commit leave when they become visible (45_sensor_control.md R216). -/
theorem foldl_commitState_formatStaged (u : State) (w : Window) (s : State) :
    (formatStaged u w).foldl commitState s =
      { s with rect := w.rect, xskip := BitVec.ofNat 4 w.xskip, yskip := BitVec.ofNat 4 w.yskip,
               totalLineTime := if u.aeMode then BitVec.ofNat 32 (w.height + u.ySkipTop.toNat + 25)
                 else s.totalLineTime } := by
  rw [formatStaged]
  generalize BitVec.ofNat 32 (w.height + u.ySkipTop.toNat + 25) = t
  cases u.aeMode <;> rfl

/-! ### The commit on given answers -/

/-- The transactions of a commit: the hold, the writes, the release (45_sensor_control.md R213, R216). -/
def commitTrace (u : State) (w : Window) (old0 old1 : Half) : List Transaction :=
  [snsReadOf 0x07#32 old0, snsWriteOf 0x07#32 (old0 ||| 1#16)] ++ formatTrace u w ++
    [snsReadOf 0x07#32 old1, snsWriteOf 0x07#32 (old1 &&& 0xFFFE#16)]

theorem outputDisable_ok {s : State} {old ack : Word} {rest : List Input}
    (h : s.inputs = .answer (.value old) :: .answer (.value ack) :: rest) :
    outputDisable psme s = .ok () (ran s [snsReadOf 0x07#32 (old.extractLsb' 0 16),
      snsWriteOf 0x07#32 (old.extractLsb' 0 16 ||| 1#16)] rest) := snsUpdate_value h

theorem outputEnable_ok {s : State} {old ack : Word} {rest : List Input}
    (h : s.inputs = .answer (.value old) :: .answer (.value ack) :: rest) :
    outputEnable psme s = .ok () (ran s [snsReadOf 0x07#32 (old.extractLsb' 0 16),
      snsWriteOf 0x07#32 (old.extractLsb' 0 16 &&& 0xFFFE#16)] rest) := snsUpdate_value h

theorem snsWrites_formatWrites {u s : State} {w : Window} (hw : w.InRange) {acks : List Word} {rest : List Input}
    (hlen : acks.length = (formatWrites psme u w).length)
    (hin : s.inputs = acks.map (fun v => .answer (.value v)) ++ rest) :
    snsWrites (formatWrites psme u w) s = .ok () (ran s (formatTrace u w) rest) :=
  (snsWrites_value _ acks hlen hin).trans (congrArg (fun tr => Res.ok () (ran s tr rest)) (formatWrites_trace hw u))

theorem commitFormat_ok {u : State} {w : Window} (hw : w.InRange) (h : w.height + u.ySkipTop.toNat ≤ 65536)
    {old0 a0 old1 a1 : Word} {acks : List Word} {rest : List Input} (hlen : acks.length = (formatWrites psme u w).length)
    (hin : u.inputs = [.answer (.value old0), .answer (.value a0)] ++ acks.map (fun v => .answer (.value v)) ++
      [.answer (.value old1), .answer (.value a1)] ++ rest) :
    commitFormat psme u w u = .ok () { ran u (commitTrace u w (old0.extractLsb' 0 16) (old1.extractLsb' 0 16)) rest with
      stagedState := u.stagedState ++ formatStaged u w,
      stagedRes := u.stagedRes ++ formatResults psme w.width w.height w.xskip w.yskip } := by
  simp only [List.append_assoc, List.cons_append, List.nil_append] at hin
  rw [commitFormat, checkHalves_of_fit (formatWrites_fit hw h), ret_andThen, andThen_of_ok (outputDisable_ok hin),
    andThen_of_ok (snsWrites_formatWrites hw hlen (ran_inputs _ _ _)), ran_ran,
    andThen_of_ok (outputEnable_ok (ran_inputs _ _ _)), ran_ran, stageFormat_results_eq]
  rfl

theorem commitFormat_rejects {u : State} {w : Window} (h : 65536 < w.height + u.ySkipTop.toNat) :
    commitFormat psme u w u = .raise .invalidRequest u := by
  rw [commitFormat, checkHalves_of_tall h, raise_andThen]
  rfl

/-! ### SNS_SET_FORMAT -/

theorem snsSetFormatBody_of_pad {u : State} (h : u.latch.get 0 ≠ 0#32) :
    snsSetFormatBody psme u = .raise .invalidRequest u := by
  rw [snsSetFormatBody, argU32_bind, argU32_bind, argU32_bind,
    require_of_false (decide_eq_false (mt (toNat_eq_zero_iff _).mp h)), raise_andThen]
  rfl

theorem snsSetFormatBody_of_noPad {u : State} (h : u.latch.get 0 = 0#32) :
    snsSetFormatBody psme u =
      commitFormat psme u (windowSolve psme (u.latch.get 1).toNat (u.latch.get 2).toNat u.rect) u := by
  rw [snsSetFormatBody, argU32_bind, argU32_bind, argU32_bind,
    require_of_true (decide_eq_true ((toNat_eq_zero_iff _).mpr h)), ret_andThen, current_bind]

/-- A commit that staged its results and its record completes OK with them (45_sensor_control.md R216; 60_exceptions.md
R246). -/
theorem exec_of_formatStaged {i : Instr} {s u t : State} {w : Window} (hl : landedState s = some u)
    (hb : bodyOf i u = .ok () t) (hstate : t.stagedState = u.stagedState ++ formatStaged u w)
    (hres : t.stagedRes = u.stagedRes ++ formatResults psme w.width w.height w.xskip w.yskip) :
    exec i s = .next
      { afterOk t (((((t.res.set 0 (BitVec.ofNat 32 (w.width / w.xskip))).set 1 (BitVec.ofNat 32 (w.height / w.yskip))).set
          2 0x3007#32).set 3 8#32).set 4 1#32) with
        rect := w.rect, xskip := BitVec.ofNat 4 w.xskip, yskip := BitVec.ofNat 4 w.yskip,
        totalLineTime := if u.aeMode then BitVec.ofNat 32 (w.height + u.ySkipTop.toNat + 25) else t.totalLineTime } := by
  rw [exec_of_committed hl hb _ _ hres hstate, foldl_commitState_formatStaged]
  rfl

/-- Settles O50. -/
theorem snsSetFormatCommitsTheWindow : Obligations.SnsSetFormatCommitsTheWindow := by
  intro s u hl w changed half t
  have hw : w.InRange := windowSolve_inRange _ _ _
  have hbody (h : u.latch.get 0 = 0#32) : snsSetFormatBody psme u = commitFormat psme u w u :=
    snsSetFormatBody_of_noPad h
  clear_value w
  refine ⟨fun h => exec_of_raise hl (i := .snsSetFormat) (e := .invalidRequest) ?_,
    fun old0 a0 acks old1 a1 rest h0 hfit hlen hin => ?_⟩
  · obtain h0 | h0 := eq_or_ne (u.latch.get 0) 0#32
    · obtain hpad | htall := h
      · exact absurd h0 hpad
      · exact (hbody h0).trans (commitFormat_rejects htall)
    · exact snsSetFormatBody_of_pad h0
  · have hok := commitFormat_ok hw hfit (hlen.trans (formatWrites_length u w).symm) hin
    rw [exec_of_formatStaged hl (i := .snsSetFormat) ((hbody h0).trans hok) rfl rfl]
    simp only [commitTrace, formatTrace, List.append_assoc, List.cons_append, List.nil_append]
    rfl

end Sys2Proof.Machine
end

section
/-! PROOFS. The automatic exposure invariant (45_sensor_control.md R217): what the parts of a format commit made whenever
they succeeded, and that the shutter is the last thing written before the release. -/

namespace Sys2Proof.Machine

/-! ### What a success made -/

/-- A sequence that succeeds has both parts succeed. -/
theorem bind_ok_iff {α β : Type} {c : Cmd α} {f : α → Cmd β} {s t : State} {b : β} :
    (c.bind f) s = .ok b t ↔ ∃ a u, c s = .ok a u ∧ f a u = .ok b t := by
  cases hc : c s with
  | ok a u =>
    rw [bind_of_ok hc]
    exact ⟨fun h => ⟨a, u, rfl, h⟩, by rintro ⟨_, _, ⟨rfl, rfl⟩, h⟩; exact h⟩
  | raise e u =>
    rw [bind_of_raise hc]
    exact ⟨nofun, by rintro ⟨_, _, h, -⟩; cases h⟩
  | reset u =>
    rw [bind_of_reset hc]
    exact ⟨nofun, by rintro ⟨_, _, h, -⟩; cases h⟩

theorem andThen_ok_iff {α β : Type} {c : Cmd α} {d : Cmd β} {s t : State} {b : β} :
    (c.andThen d) s = .ok b t ↔ ∃ a u, c s = .ok a u ∧ d u = .ok b t := bind_ok_iff

theorem require_ok {ok : Bool} {e : Err} {s t : State} (h : require ok e s = .ok () t) : t = s := by
  cases ok with
  | true => cases h; rfl
  | false => cases h

/-- What an access that succeeded made and left. -/
theorem AccessEnd.of_ok {α : Type} {p : Port} {addr : Word} {op : ChanOp} {reply : α → Reply} {s t : State} {a : α}
    (h : AccessEnd p addr op reply s (.ok a t)) : t.trace = s.trace ++ [⟨p, addr, op, reply a⟩] ∧ SameStaged s t := by
  cases h with
  | ok ht hs => exact ⟨ht, hs⟩

theorem snsWrite_made {a v : Half} {s t : State} (h : snsWrite a v s = .ok () t) :
    t.trace = s.trace ++ [snsWriteOf (a.setWidth 32) v] ∧ SameStaged s t := by
  have hends := memWrite_ends .sns (a.setWidth 32) (v.setWidth 32) s
  rw [snsWrite] at h
  rw [h] at hends
  exact hends.of_ok

theorem snsWrites_made {ws : List (Half × Nat)} {s t : State} (h : snsWrites ws s = .ok () t) :
    t.trace = s.trace ++ ws.map writeTransaction ∧ SameStaged s t := by
  induction ws generalizing s with
  | nil =>
    cases h
    exact ⟨(List.append_nil _).symm, rfl, rfl⟩
  | cons w ws ih =>
    rw [snsWrites] at h
    obtain ⟨_, u, hw, hws⟩ := andThen_ok_iff.mp h
    obtain ⟨htrace, hstaged⟩ := snsWrite_made hw
    obtain ⟨htraces, hstageds⟩ := ih hws
    exact ⟨by rw [htraces, htrace, List.append_assoc]; rfl, hstaged.trans hstageds⟩

/-- An update that succeeded made two transactions, both at its register (20_memory.md R55). -/
theorem snsUpdate_made {a mask : Half} {set : Bool} {s t : State} (h : snsUpdate a mask set s = .ok () t) :
    ∃ x y : Transaction, t.trace = s.trace ++ [x, y] ∧ x.addr = a.setWidth 32 ∧ y.addr = a.setWidth 32 ∧
      SameStaged s t := by
  rw [snsUpdate] at h
  obtain ⟨old, u, hread, hwrite⟩ := bind_ok_iff.mp h
  rw [snsRead] at hread
  obtain ⟨v, _, hv, hold⟩ := bind_ok_iff.mp hread
  cases hold
  have hends := memRead_ends .sns (a.setWidth 32) s
  rw [hv] at hends
  obtain ⟨hreadTrace, hreadStaged⟩ := hends.of_ok
  obtain ⟨hwriteTrace, hwriteStaged⟩ := snsWrite_made hwrite
  exact ⟨_, _, by rw [hwriteTrace, hreadTrace, List.append_assoc]; rfl, rfl, rfl, hreadStaged.trans hwriteStaged⟩

/-! ### What a commit made -/

/-- A commit that succeeded made the writes of its window between two pairs at the output control, and staged the record
and the results of its window (45_sensor_control.md R216). -/
structure Committed (u : State) (w : Window) (t : State) : Prop where
  trace : ∃ before x y, t.trace = before ++ formatTrace u w ++ [x, y] ∧ x.addr = 0x07#32 ∧ y.addr = 0x07#32
  state : t.stagedState = u.stagedState ++ formatStaged u w
  results : t.stagedRes = u.stagedRes ++ formatResults psme w.width w.height w.xskip w.yskip

theorem commitFormat_made {u t : State} {w : Window} (hw : w.InRange) (h : commitFormat psme u w u = .ok () t) :
    Committed u w t := by
  obtain ⟨_, u₀, hcheck, h⟩ := andThen_ok_iff.mp h
  obtain rfl := require_ok hcheck
  obtain ⟨_, u₁, hhold, h⟩ := andThen_ok_iff.mp h
  obtain ⟨_, u₂, hwrites, h⟩ := andThen_ok_iff.mp h
  obtain ⟨_, u₃, hrelease, h⟩ := andThen_ok_iff.mp h
  obtain ⟨-, -, -, -, -, hhold⟩ := snsUpdate_made hhold
  obtain ⟨htrace, hwrites⟩ := snsWrites_made hwrites
  obtain ⟨x, y, htail, hx, hy, hrelease⟩ := snsUpdate_made hrelease
  rw [formatWrites_trace hw] at htrace
  rw [stageFormat_results_eq] at h
  cases h
  obtain ⟨hres, hstate⟩ := (hhold.trans hwrites).trans hrelease
  exact { trace := ⟨u₁.trace, x, y, htail.trans (by rw [htrace]), hx, hy⟩, state := by rw [hstate],
          results := by rw [hres] }

/-- SNS_SET_FORMAT that succeeded committed some window in range. -/
theorem snsSetFormatBody_made {u t : State} (h : snsSetFormatBody psme u = .ok () t) :
    ∃ w : Window, w.InRange ∧ Committed u w t := by
  obtain h0 | h0 := eq_or_ne (u.latch.get 0) 0#32
  · rw [snsSetFormatBody_of_noPad h0] at h
    exact ⟨_, windowSolve_inRange _ _ _, commitFormat_made (windowSolve_inRange _ _ _) h⟩
  · rw [snsSetFormatBody_of_pad h0] at h
    cases h

/-- In automatic mode the shutter is the last of the writes of a commit (45_sensor_control.md R216). -/
theorem formatTrace_auto {u : State} (w : Window) (h : u.aeMode = true) :
    ∃ before, formatTrace u w = before ++ shutterTrace (BitVec.ofNat 32 (w.height + u.ySkipTop.toNat + 25)) := by
  rw [formatTrace, if_pos (c := u.aeMode = true) h]
  exact ⟨_, rfl⟩

/-- The automatic shutter of a window in range is a word (45_sensor_control.md R212). -/
theorem toNat_autoShutter {w : Window} (hw : w.InRange) (skipTop : Half) :
    (BitVec.ofNat 32 (w.height + skipTop.toNat + 25)).toNat = w.rect.height.toNat + skipTop.toNat + 25 := by
  have hheight := hw.height
  have hskip := skipTop.isLt
  have hrect : w.rect.height.toNat = w.height := by
    rw [Window.rect, BitVec.toNat_ofNat, Nat.mod_eq_of_lt (by omega)]
  rw [hrect, BitVec.toNat_ofNat, Nat.mod_eq_of_lt (by omega)]

/-- Settles O51: a completion without error is that of a commit, whose last writes before the release are the shutter's. -/
theorem autoExposureAfterEveryCommit : Obligations.AutoExposureAfterEveryCommit := by
  intro s t h hdone herr hauto
  cases exec_ends h with
  | @ok u t hl hb hf _ =>
    obtain ⟨_, -, hlanded⟩ := landed_of_landedState hl
    have hmode : u.aeMode = true := by rw [hlanded.eq]; exact hauto
    have hskip : t.ySkipTop = u.ySkipTop := by rw [hf.ySkipTop, hlanded.eq]
    obtain ⟨w, hw, htrace, hstate, hresults⟩ := snsSetFormatBody_made hb
    obtain ⟨before, x, y, htrace, hx, hy⟩ := htrace
    obtain ⟨front, hfront⟩ := formatTrace_auto w hmode
    rw [exec_of_formatStaged hl hb hstate hresults] at h
    rw [if_pos hmode] at h
    rw [← Host.Outcome.next.inj h]
    refine ⟨(toNat_autoShutter hw _).trans ?_, before ++ front, [x, y], ?_, ?_⟩
    · rw [← hskip]
      rfl
    · rw [List.append_assoc before, ← hfront]
      exact htrace
    · rintro z hz
      obtain rfl | rfl : z = x ∨ z = y := by simpa using hz
      · rw [hx]
        decide
      · rw [hy]
        decide
  | raise _ _ _ he =>
    obtain ⟨hrej, -⟩ | hch := he
    · exact absurd herr (by cases hrej <;> nofun)
    · exact absurd herr (by cases hch <;> nofun)
  | abandoned h =>
    obtain ⟨u, -, rfl, -⟩ := h
    cases hdone

end Sys2Proof.Machine
end
